-- ==== Sys2Proof/Word.lean ====
section
/-! DEFINITION. The widths of the values of the spec (R7): bytes, nibbles, HD44780 addresses, pin ids. -/

namespace Sys2Proof

/-- An 8-bit value: every operand of the input port (R70, D3), every register but `INIT` (R20), every
transferred byte (R71). -/
abbrev Byte := BitVec 8

/-- A 4-bit value: what one `Write4` carries (R9). -/
abbrev Nibble := BitVec 4

/-- A DDRAM address and an entry of the row base table (R32, R51). -/
abbrev Addr7 := BitVec 7

/-- A CGRAM address (R51). -/
abbrev Addr6 := BitVec 6

/-- An output transfer as one word: bit 8 is the register-select level, bits 7 to 0 the byte (R34, R71). -/
abbrev TransferWord := BitVec 9

/-- A platform pin identifier: opaque, not validated for range, with decidable equality (R5). Only equality
means anything; the order of `Nat` serves the canonical form of the line map alone. -/
abbrev PinId := Nat

end Sys2Proof
end

