-- ==== Sys2Proof/Syntax.lean ====
section
/-! DEFINITION. The syntax: modes, trace events, the instructions (one constructor per row of
spec/opcode_table.json), the requests that carry them. -/

namespace Sys2Proof

/-- `mode` of an output transfer: "whether subsequent writes are interpreted as command or data by the
hardware" (R71). -/
inductive Mode where
  | command
  | data
  deriving DecidableEq, Repr

/-- The events of the transport-call trace (R9). -/
inductive TransportEvent where
  /-- the transport's `setMode` -/
  | setMode (m : Mode)
  /-- the transport's `write4bits` -/
  | write4 (n : Nibble)
  /-- the transport's `write8bits` -/
  | write8 (b : Byte)
  /-- a busy-wait of at least `t` microseconds that the encoder issues -/
  | delay (t : Nat)
  deriving DecidableEq, Repr

/-- The events of the pin-event trace (R10). -/
inductive PinEvent where
  /-- set line `p` to `level` (`true` is 1) -/
  | drive (p : PinId) (level : Bool)
  /-- at least `t` microseconds pass before the next event; there is no upper bound -/
  | wait (t : Nat)
  deriving DecidableEq, Repr

/-- `createChar`'s operand `pattern[0..7]`, eight byte values on the input port (R70, R180, D40). -/
structure Pattern where
  p0 : Byte
  p1 : Byte
  p2 : Byte
  p3 : Byte
  p4 : Byte
  p5 : Byte
  p6 : Byte
  p7 : Byte
  deriving DecidableEq, Repr

/-- One constructor per row of spec/opcode_table.json, in the table's order: the 19 operations of the input
port (R70), the encoder's and the transport's internal calls (R186, R110 to R118), the eight HD44780 command
classes (R72) and the data byte (R81). Operand widths are in the types, so every term is well formed as an
instruction; on which interface it may arrive is `Request.wellFormed`. -/
inductive Instr where
  | begin (cols rows charsize : Byte)
  | clear
  | home
  | noDisplay
  | display
  | noCursor
  | cursor
  | noBlink
  | blink
  | scrollDisplayLeft
  | scrollDisplayRight
  | leftToRight
  | rightToLeft
  | autoscroll
  | noAutoscroll
  | createChar (index : Byte) (pattern : Pattern)
  | setCursor (col row : Byte)
  | write (value : Byte)
  | command (value : Byte)
  | send (value : Byte) (mode : Mode)
  | setMode (m : Mode)
  | write4bits (n : Byte)
  | write8bits (b : Byte)
  | fourbitmode
  | pulseEnable
  | cmdClear
  /-- `x` is the don't-care bit 0 (R74) -/
  | cmdReturnHome (x : BitVec 1)
  | cmdEntryMode (id s : Bool)
  | cmdDisplayControl (d c b : Bool)
  /-- `x` is the don't-care bits 1 to 0 (R77) -/
  | cmdShift (sc rl : Bool) (x : BitVec 2)
  /-- `x` is the don't-care bits 1 to 0 (R78) -/
  | cmdFunctionSet (dl n f : Bool) (x : BitVec 2)
  | cmdSetCgramAddr (a : Addr6)
  | cmdSetDdramAddr (a : Addr7)
  | dataByte (v : Byte)
  deriving DecidableEq, Repr

/-- The column `format` of the opcode table (R95). -/
inductive Format where
  | inputOp
  | internal
  | transport
  | hd44780Command
  | hd44780Data
  deriving DecidableEq, Repr

/-- What can be put before the block. The spec gives the input port no numeric opcode (R70, D2): an operation
arrives by name with its operands (R33). The other two forms expose what lies behind the port: the internal
calls (R120 speaks of a model that exposes one), and an output transfer written as the word of R71.
DESIGN CHOICE, log 1, 2, 3. -/
inductive Request where
  /-- an operation of the input port -/
  | op (i : Instr)
  /-- a call at the interface between encoder and sequencer -/
  | call (i : Instr)
  /-- an output transfer as a word: bit 8 the register-select level, bits 7 to 0 the byte -/
  | word (w : Nat)
  deriving DecidableEq, Repr

end Sys2Proof
end

