-- ==== Sys2Proof/Config.lean ====
section
/-! DEFINITION. The parameter record (R5, R6) and the open lowering LOWER_OTHER (R121, D29). -/

namespace Sys2Proof

/-- `FOURBIT` and `DATA_PINS` in one (R5, R31): the data lines, index 0 first, four of them or eight. -/
inductive Wiring where
  | four (d0 d1 d2 d3 : PinId)
  | eight (d0 d1 d2 d3 d4 d5 d6 d7 : PinId)
  deriving DecidableEq, Repr

/-- `TRANSPORT` (R5, R121). -/
inductive Transport where
  | directPin
  | other
  deriving DecidableEq, Repr

/-- `INIT8_FS_REPEATS`, one of 0, 1, 3 (R5, R135, D8). -/
inductive FsRepeats where
  | zero
  | one
  | three
  deriving DecidableEq, Repr

/-- `ROW_CLAMP` (R5, R182, D14). -/
inductive RowClamp where
  | ge
  | gt
  deriving DecidableEq, Repr

/-- `ROW_BASE`, four 7-bit entries (R5, R32). -/
structure RowBase where
  row0 : Addr7
  row1 : Addr7
  row2 : Addr7
  row3 : Addr7
  deriving DecidableEq, Repr

/-- The timing constants, microseconds, each a lower bound (R6). -/
structure Timing where
  powerOn : Nat
  init4First : Nat
  init4Second : Nat
  init4Third : Nat
  init8First : Nat
  init8Second : Nat
  clear : Nat
  enPre : Nat
  enWidth : Nat
  enSettle : Nat
  deriving DecidableEq, Repr

/-- The parameters of one block instance (R5), "fixed for the lifetime" of it. -/
structure Config where
  wiring : Wiring
  rsPin : PinId
  rwPin : Option PinId
  ePin : PinId
  transport : Transport
  fsRepeats : FsRepeats
  rowClamp : RowClamp
  rowBase : RowBase
  timing : Timing
  deriving DecidableEq, Repr

/-- The default of `ROW_BASE` (R5, R32, D5). UNVERIFIED, log 16: the spec has the values from general knowledge. -/
def Config.defaultRowBase : RowBase := ⟨0x00, 0x40, 0x14, 0x54⟩

/-- The default timing constants (R6, D23). UNVERIFIED, log 16: the spec has the values from general knowledge. -/
def Config.defaultTiming : Timing where
  powerOn := 50000
  init4First := 4500
  init4Second := 4500
  init4Third := 150
  init8First := 4500
  init8Second := 150
  clear := 2000
  enPre := 1
  enWidth := 1
  enSettle := 100

/-- A direct-pin instance with the given wiring and the defaults of R5: register select 12, enable 11, no
read/write line, as in the test vectors (95_test_vectors.md sections 2.1 and 3). DESIGN CHOICE, log 5. -/
def Config.ofWiring (w : Wiring) : Config where
  wiring := w
  rsPin := 12
  rwPin := none
  ePin := 11
  transport := .directPin
  fsRepeats := .one
  rowClamp := .ge
  rowBase := Config.defaultRowBase
  timing := Config.defaultTiming

/-- The configuration of State.reset: Program 1's (95_test_vectors.md). DESIGN CHOICE, log 5. -/
def Config.default : Config := Config.ofWiring (.eight 2 3 4 5 6 7 8 9)

/-- FREE VALUE, log 11. `LOWER_OTHER` (R121, D29, OPEN): what a transport other than direct-pin lowers an event
to, before the limits of R121 are put on it (`Machine.lowerOther`). A function of the configuration and the
event alone, as R122 says of every lowering. Nothing is known of its values. -/
opaque Config.otherLowering : Config → TransportEvent → List PinEvent

/-- FREE VALUE, log 12. What a transport other than direct-pin does for one bare enable pulse, before the limits
of R121 are put on it (`Machine.lowerPulse`). Nothing is known of its values. -/
opaque Config.otherPulse : Config → List PinEvent

end Sys2Proof
end

