-- ==== Sys2Proof/WellFormed.lean ====
section
/-! DEFINITION. Which request may arrive on which interface (R70, R92, R95). -/

namespace Sys2Proof

/-- The format of an instruction's row in the opcode table (R95). -/
def Instr.format : Instr → Format
  | .begin _ _ _ | .clear | .home => .inputOp
  | .noDisplay | .display | .noCursor | .cursor | .noBlink | .blink => .inputOp
  | .scrollDisplayLeft | .scrollDisplayRight => .inputOp
  | .leftToRight | .rightToLeft | .autoscroll | .noAutoscroll => .inputOp
  | .createChar _ _ | .setCursor _ _ | .write _ | .command _ => .inputOp
  | .send _ _ => .internal
  | .setMode _ | .write4bits _ | .write8bits _ | .fourbitmode | .pulseEnable => .transport
  | .cmdClear | .cmdReturnHome _ | .cmdEntryMode _ _ | .cmdDisplayControl _ _ _ => .hd44780Command
  | .cmdShift _ _ _ | .cmdFunctionSet _ _ _ _ => .hd44780Command
  | .cmdSetCgramAddr _ | .cmdSetDdramAddr _ => .hd44780Command
  | .dataByte _ => .hd44780Data

/-- The closed list of R70: the 19 operations the input port carries. -/
def Instr.isInputOp (i : Instr) : Bool := i.format = .inputOp

/-- "The sequencer's primitives … and the encoder's internal `send` are internal interfaces, not rows of the
input port" (R70). -/
def Instr.isInternalCall (i : Instr) : Bool := i.format = .internal || i.format = .transport

/-- A request is well formed when its instruction belongs to the interface it arrives on; a transfer word has
nine bits and is not the command byte of no class, `0x00` (R72). -/
def Request.wellFormed : Request → Bool
  | .op i => i.isInputOp
  | .call i => i.isInternalCall
  | .word w => decide (0 < w ∧ w < 512)

end Sys2Proof
end

