-- ==== Sys2Proof/Decode.lean ====
section
/-! DEFINITION. The output encoding (R71 to R81): command-byte classes, the transfer word, its decoder and
encoder, and the requests' decoding. -/

namespace Sys2Proof

/-! ## Bits -/

/-- A flag as the bit of weight `2^k` of a byte. -/
def flagBit (v : Bool) (k : Nat) : Byte := if v then 1#8 <<< k else 0#8

/-- The register-select level of a mode: Command 0, Data 1 (R71, D4). -/
def Mode.level : Mode → Bool
  | .command => false
  | .data => true

/-! ## Command byte formats (R72 to R80) -/

/-- clear, `0000 0001` (R73). -/
def clearByte : Byte := 0x01

/-- return-home, `0000 001x` (R74). -/
def returnHomeByte (x : BitVec 1) : Byte := 0x02 ||| x.zeroExtend 8

/-- set-entry-mode, `0x04 | ID<<1 | S` (R75). -/
def entryModeByte (id s : Bool) : Byte := 0x04 ||| flagBit id 1 ||| flagBit s 0

/-- set-display-control, `0x08 | D<<2 | C<<1 | B` (R76). -/
def displayControlByte (d c b : Bool) : Byte := 0x08 ||| flagBit d 2 ||| flagBit c 1 ||| flagBit b 0

/-- shift, `0x10 | SC<<3 | RL<<2`, bits 1 to 0 don't care (R77). -/
def shiftByte (sc rl : Bool) (x : BitVec 2) : Byte := 0x10 ||| flagBit sc 3 ||| flagBit rl 2 ||| x.zeroExtend 8

/-- set-function, `0x20 | DL<<4 | N<<3 | F<<2`, bits 1 to 0 don't care (R78). -/
def functionSetClassByte (dl n f : Bool) (x : BitVec 2) : Byte :=
  0x20 ||| flagBit dl 4 ||| flagBit n 3 ||| flagBit f 2 ||| x.zeroExtend 8

/-- set-CGRAM-address, `0x40 | A`, `A` 6 bits (R79). -/
def setCgramByte (a : Addr6) : Byte := 0x40 ||| a.zeroExtend 8

/-- set-DDRAM-address, `0x80 | A`, `A` 7 bits (R80). -/
def setDdramByte (a : Addr7) : Byte := 0x80 ||| a.zeroExtend 8

/-! ## Decoding -/

/-- Why a request names no instruction. -/
inductive DecodeError where
  /-- an instruction outside the closed list of R70 on the input port (R92) -/
  | notAnInputOperation
  /-- an instruction that is no internal call (R70) at the internal interface -/
  | notAnInternalCall
  /-- a command byte that matches no class: `0x00` (R72, R91) -/
  | noCommandClass
  /-- a transfer word of more than nine bits (R71) -/
  | wordTooWide
  deriving DecidableEq, Repr

/-- "A command byte's class is given by its most significant 1 bit" (R72). -/
def decodeCommand (b : Byte) : Except DecodeError Instr :=
  if b.getLsbD 7 then .ok (.cmdSetDdramAddr (b.extractLsb' 0 7))
  else if b.getLsbD 6 then .ok (.cmdSetCgramAddr (b.extractLsb' 0 6))
  else if b.getLsbD 5 then .ok (.cmdFunctionSet (b.getLsbD 4) (b.getLsbD 3) (b.getLsbD 2) (b.extractLsb' 0 2))
  else if b.getLsbD 4 then .ok (.cmdShift (b.getLsbD 3) (b.getLsbD 2) (b.extractLsb' 0 2))
  else if b.getLsbD 3 then .ok (.cmdDisplayControl (b.getLsbD 2) (b.getLsbD 1) (b.getLsbD 0))
  else if b.getLsbD 2 then .ok (.cmdEntryMode (b.getLsbD 1) (b.getLsbD 0))
  else if b.getLsbD 1 then .ok (.cmdReturnHome (b.extractLsb' 0 1))
  else if b.getLsbD 0 then .ok .cmdClear
  else .error .noCommandClass

/-- An output transfer, mode and byte (R71). -/
def decodeTransfer (m : Mode) (b : Byte) : Except DecodeError Instr :=
  match m with
  | .command => decodeCommand b
  | .data => .ok (.dataByte b)

/-- A transfer word: bit 8 the register-select level, bits 7 to 0 the byte (R34, R71). -/
def decodeWord (w : TransferWord) : Except DecodeError Instr :=
  decodeTransfer (if w.getLsbD 8 then .data else .command) (w.extractLsb' 0 8)

/-- The instruction a request carries, or why it carries none. Total. -/
def Request.decode : Request → Except DecodeError Instr
  | .op i => if i.isInputOp then .ok i else .error .notAnInputOperation
  | .call i => if i.isInternalCall then .ok i else .error .notAnInternalCall
  | .word w => if w < 512 then decodeWord (BitVec.ofNat 9 w) else .error .wordTooWide

/-- An instruction numbered as spec/opcode_table.json numbers it. A row's pattern describes a byte that is
sent, "not an input opcode, because the input port has none" (R95); so the decoder reads the word as an output
transfer, and the bits above `nbits`, the register-select level among them, are 0. DESIGN CHOICE, log 4. -/
def decodeTableWord (nbits w : Nat) : Option Instr :=
  match (Request.word (w % 2 ^ nbits)).decode with
  | .ok i => some i
  | .error _ => none

/-! ## Encoding -/

/-- The word of a transfer (R34, R71). -/
def transferWord (m : Mode) (b : Byte) : TransferWord := BitVec.ofBool m.level ++ b

/-- The word of an instruction that is a transfer; none for an operation or an internal call, which have no
word (R70, D2). -/
def encodeWord : Instr → Option TransferWord
  | .cmdClear => some (transferWord .command clearByte)
  | .cmdReturnHome x => some (transferWord .command (returnHomeByte x))
  | .cmdEntryMode id s => some (transferWord .command (entryModeByte id s))
  | .cmdDisplayControl d c b => some (transferWord .command (displayControlByte d c b))
  | .cmdShift sc rl x => some (transferWord .command (shiftByte sc rl x))
  | .cmdFunctionSet dl n f x => some (transferWord .command (functionSetClassByte dl n f x))
  | .cmdSetCgramAddr a => some (transferWord .command (setCgramByte a))
  | .cmdSetDdramAddr a => some (transferWord .command (setDdramByte a))
  | .dataByte v => some (transferWord .data v)
  | .begin _ _ _ | .clear | .home | .noDisplay | .display | .noCursor | .cursor | .noBlink | .blink => none
  | .scrollDisplayLeft | .scrollDisplayRight | .leftToRight | .rightToLeft | .autoscroll | .noAutoscroll => none
  | .createChar _ _ | .setCursor _ _ | .write _ | .command _ | .send _ _ => none
  | .setMode _ | .write4bits _ | .write8bits _ | .fourbitmode | .pulseEnable => none

/-- The request that carries an instruction: a transfer as its word, an operation of R70 by name on the input
port, an internal call at the internal interface. -/
def encode (i : Instr) : Request :=
  match encodeWord i with
  | some w => .word w.toNat
  | none => if i.isInputOp then .op i else .call i

end Sys2Proof
end

