-- ==== Sys2Proof/Machine/State.lean ====
section
/-! DEFINITION. The state of the block (R20), with its configuration (R5), its two observations (R9, R10) and
the operations the host has still to issue (R11); the reasons a step stops; reset (R38, R230). -/

namespace Sys2Proof.Machine

/-- The three model faults (R201), each with the information its rule says is recorded. -/
inductive FaultReason where
  /-- any operation but begin while `INIT = 0`; records the operation and its operands (R202) -/
  | notInitialized (op : Instr)
  /-- begin while `INIT = 1` (R203) -/
  | beginTwice
  /-- setCursor whose clamped row `r` is outside the row base table; records `col`, `row`, `r` and
  `NUMLINES` (R204) -/
  | rowOutOfTable (col row r numlines : Byte)
  deriving DecidableEq, Repr

/-- Why the machine stops. A fault of R201 is not here: raising one is a next state with `FAULT` written
(R206), and what stops is the step after it. -/
inductive Fault where
  /-- Raised by every operation, every internal call and every step once `FAULT` is not none: "after a fault
  the block has no step" (R207). Safe: the spec itself has no step there. -/
  | noStep (r : FaultReason)
  deriving DecidableEq, Repr

/-- Why there is no meaning. -/
inductive Refusal where
  /-- Raised by an arm of `exec` for an instruction that has no meaning yet. Safe. No arm raises it now. -/
  | notModelled (mnemonic : String)
  /-- Raised by `step` for a request that names no instruction of its interface: an instruction outside the
  closed list of R70 on the input port (R92), or a transfer word of no command class (R72, R91). Safe: such a
  request is no operation of the block. -/
  | undecodable (e : DecodeError)
  deriving DecidableEq, Repr

/-- The state. The record of R20, then the model's own fields. -/
structure State where
  /-- the parameters (R5, R31): never written (log 5) -/
  cfg : Config
  /-- `DF`, the display-function flags (R21) -/
  df : Byte
  /-- `DC`, the display-control flags (R23) -/
  dc : Byte
  /-- `DM`, the display-mode flags (R24) -/
  dm : Byte
  /-- `INIT`, the initialised flag (R25) -/
  init : Bool
  /-- `CURLINE`, the current line index (R27) -/
  curline : Byte
  /-- `NUMLINES`, the configured row count (R26) -/
  numlines : Byte
  /-- `FAULT`, sticky (R20, R206, R207) -/
  fault : Option FaultReason
  /-- `LINE`: the driven lines with the level last driven, pins rising; a pin not listed is `U` (R20, R36; log 10) -/
  line : List (PinId × Bool)
  /-- the transport-call trace, oldest event first (R9; log 9) -/
  trace : List TransportEvent
  /-- the pin-event trace, oldest event first (R10; log 9) -/
  pins : List PinEvent
  /-- the model's own field: what the last exposed call of `fourbitmode()` returned to its caller (R117; log 13) -/
  answer : Option Bool
  /-- what the host has still to issue, first to come first (R11, R33; log 1) -/
  port : List Request
  deriving DecidableEq, Repr

/-- Reset is the construction of the block with a configuration (R230): `INIT = 0`, no fault, every line `U`,
nothing emitted (R38). `DF`, `DC`, `DM`, `NUMLINES`, `CURLINE` are unspecified (R38): 0 here, DESIGN CHOICE, log 6. -/
def State.resetWith (cfg : Config) : State where
  cfg := cfg
  df := 0
  dc := 0
  dm := 0
  init := false
  curline := 0
  numlines := 0
  fault := none
  line := []
  trace := []
  pins := []
  answer := none
  port := []

/-- The machine right after reset, for the configuration of Program 1 (log 5). -/
def State.reset : State := State.resetWith Config.default

end Sys2Proof.Machine
end

