-- ==== Sys2Proof/Machine/Ops.lean ====
section
/-! DEFINITION. The named operations: the line map (R36), the lowering to pins (R111 to R121), emitting an
event (R8), the primitives of the sequencer (R110 to R118), `send` (R186), the guards, raising a fault (R206). -/

namespace Sys2Proof.Machine

open Host (Outcome)

/-! ## Configuration -/

/-- `FOURBIT`: true for 4-bit wiring (R5). -/
def fourbit (cfg : Config) : Bool :=
  match cfg.wiring with
  | .four _ _ _ _ => true
  | .eight _ _ _ _ _ _ _ _ => false

/-- `DATA_PINS`, index 0 first (R5). -/
def dataPins (cfg : Config) : List PinId :=
  match cfg.wiring with
  | .four d0 d1 d2 d3 => [d0, d1, d2, d3]
  | .eight d0 d1 d2 d3 d4 d5 d6 d7 => [d0, d1, d2, d3, d4, d5, d6, d7]

/-! ## The line map (R20, R36) -/

/-- `LINE[p]`: the level last driven, none for `U`. -/
def lineLevel : List (PinId × Bool) → PinId → Option Bool
  | [], _ => none
  | (q, v) :: rest, p => if q = p then some v else lineLevel rest p

/-- `LINE[p] <- v`, keeping the pins rising. -/
def setLine : List (PinId × Bool) → PinId → Bool → List (PinId × Bool)
  | [], p, v => [(p, v)]
  | (q, w) :: rest, p, v =>
    if p < q then (p, v) :: (q, w) :: rest
    else if p = q then (p, v) :: rest
    else (q, w) :: setLine rest p v

/-- The pins of a line map lie above `lo` and rise strictly. -/
def lineAbove : Option PinId → List (PinId × Bool) → Bool
  | _, [] => true
  | none, (q, _) :: rest => lineAbove (some q) rest
  | some p, (q, _) :: rest => decide (p < q) && lineAbove (some q) rest

/-- The canonical form of a line map: pins strictly rising (log 10). -/
def lineWf (l : List (PinId × Bool)) : Bool := lineAbove none l

/-- What one pin event does to the lines: a drive sets its line, a wait sets none (R10, R119). -/
def applyPin (l : List (PinId × Bool)) : PinEvent → List (PinId × Bool)
  | .drive p v => setLine l p v
  | .wait _ => l

/-- What a pin trace does to the lines: the last drive of a pin wins (R36, R122). -/
def applyPins (l : List (PinId × Bool)) (ps : List PinEvent) : List (PinId × Bool) := ps.foldl applyPin l

/-! ## Lowering for the direct-pin transport -/

/-- The drives of a value onto data lines, bit `i` on the pin of index `i`, ascending (R53, R113, R116). -/
def driveData (v : Byte) : Nat → List PinId → List PinEvent
  | _, [] => []
  | i, p :: ps => .drive p (v.getLsbD i) :: driveData v (i + 1) ps

/-- The enable pulse (R118). -/
def directPulse (cfg : Config) : List PinEvent :=
  [.drive cfg.ePin false, .wait cfg.timing.enPre,
   .drive cfg.ePin true, .wait cfg.timing.enWidth,
   .drive cfg.ePin false, .wait cfg.timing.enSettle]

/-- The drive of the read/write line to 0 when it is present (R111, D19). -/
def driveReadWrite (cfg : Config) : List PinEvent :=
  match cfg.rwPin with
  | some p => [.drive p false]
  | none => []

/-- Lowering for `TRANSPORT = DirectPin` (R111, R113, R116, R119). A `Write8` on 4-bit wiring lowers to nothing:
its two nested `Write4` events carry it. -/
def lowerDirect (cfg : Config) : TransportEvent → List PinEvent
  | .setMode m => .drive cfg.rsPin m.level :: driveReadWrite cfg
  | .write4 n => driveData (n.zeroExtend 8) 0 ((dataPins cfg).take 4) ++ directPulse cfg
  | .write8 b => if fourbit cfg then [] else driveData b 0 (dataPins cfg) ++ directPulse cfg
  | .delay t => [.wait t]

/-! ## Lowering for another transport (R121): a free value under the limits of the rule (log 11, 12) -/

/-- Reads a pin trace as enable pulses. The third argument is none while enable is low, or how long it has been
high. The result is the number of pulses, or none where a guarded line is driven while enable is high, where a high
phase is shorter than `width`, or where the trace ends with enable high (R121 properties 1, 2 and 4).

DESIGN CHOICE, log 18: R121 does not say what "stable at the enable pulse" means for another transport. Here a line
is stable when it is not driven at all while enable is high, so a drive to the level it already has counts as
unstable; no wait is asked between the last drive of a line and the rise of enable. -/
def scanPulses (e : PinId) (guarded : List PinId) (width : Nat) : Option Nat → List PinEvent → Option Nat
  | none, [] => some 0
  | some _, [] => none
  | st, .wait t :: es => scanPulses e guarded width (st.map (· + t)) es
  | none, .drive p v :: es =>
    if p = e ∧ v = true then scanPulses e guarded width (some 0) es
    else scanPulses e guarded width none es
  | some high, .drive p v :: es =>
    if p = e then
      if v then scanPulses e guarded width (some high) es
      else if width ≤ high then (scanPulses e guarded width none es).map (· + 1)
      else none
    else if p ∈ guarded then none
    else scanPulses e guarded width (some high) es

/-- The enable pulses of a pin trace on a configuration's lines. -/
def pulses (cfg : Config) (ps : List PinEvent) : Option Nat :=
  scanPulses cfg.ePin (cfg.rsPin :: dataPins cfg) cfg.timing.enWidth none ps

/-- The enable pulses an event owes: one per `Write4`, one per `Write8` on 8-bit wiring (R121 property 3). -/
def pulsesOwed (cfg : Config) : TransportEvent → Nat
  | .setMode _ => 0
  | .write4 _ => 1
  | .write8 _ => if fourbit cfg then 0 else 1
  | .delay _ => 0

/-- The sum of the waits of a pin trace: its least duration (R10, R242). -/
def waits : List PinEvent → Nat
  | [] => 0
  | .wait t :: es => t + waits es
  | .drive _ _ :: es => waits es

/-- The wait an event itself asks for: `Delay(t)` is "a busy-wait of at least `t`" (R9). -/
def waitOwed : TransportEvent → Nat
  | .delay t => t
  | .setMode _ | .write4 _ | .write8 _ => 0

/-- The four properties a lowering must keep (R121), and the wait of a `Delay` (R9). What "stable" means in the first
two is the model's choice (log 18); that they are read event by event is too (log 11).

DESIGN CHOICE, log 21: no wait is asked after the fall of enable. R234 has `T_EN_SETTLE` "after every enable pulse" and
cites R118, which is direct-pin; R121 does not list it for another transport. -/
def honours (cfg : Config) (ev : TransportEvent) (ps : List PinEvent) : Bool :=
  pulses cfg ps = some (pulsesOwed cfg ev) && decide (waitOwed ev ≤ waits ps)

/-- A pin trace drives the read/write line to 1, which nothing ever does (R34, D19, D28). Where that line's pin has
another role too, a drive to 1 is that role's (R36, D30; log 19). -/
def drivesReadWriteHigh (cfg : Config) (ps : List PinEvent) : Bool :=
  match cfg.rwPin with
  | none => false
  | some p => decide (p ≠ cfg.rsPin ∧ p ≠ cfg.ePin ∧ p ∉ dataPins cfg ∧ .drive p true ∈ ps)

/-- The limits on the lowering of another transport: the read/write line is never driven to 1 (R34, D19, D28), and the
properties of R121 hold, unless shared pins make the direct-pin lowering break them too (log 11). -/
def withinLimits (cfg : Config) (ev : TransportEvent) (ps : List PinEvent) : Bool :=
  !drivesReadWriteHigh cfg ps && (honours cfg ev ps || !honours cfg ev (lowerDirect cfg ev))

/-- `LOWER_OTHER` (R121, D29): the free lowering wherever it is within the limits; elsewhere the direct-pin lowering,
which always is, stands in. Every lowering within the limits is such a function. FREE VALUE, log 11.

DESIGN CHOICE, log 20: the free lowering of a `Delay` may drive lines. "begin drives no line before its first `SetMode`"
(R133) names no transport, but a `Delay` drives no line by R119, which is direct-pin, and R121 does not list it. -/
def lowerOther (cfg : Config) (ev : TransportEvent) : List PinEvent :=
  if withinLimits cfg ev (Config.otherLowering cfg ev) then Config.otherLowering cfg ev else lowerDirect cfg ev

/-- The lowering of an event: a pure function of the configuration and the event (R122). -/
def lower (cfg : Config) (ev : TransportEvent) : List PinEvent :=
  match cfg.transport with
  | .directPin => lowerDirect cfg ev
  | .other => lowerOther cfg ev

/-- The lowering of one bare enable pulse: R118, or for another transport a free value under R121 properties 1
to 4 that does not drive the read/write line to 1 (R34, D19), which the pulse of R118 keeps on every configuration.
FREE VALUE, log 12, log 18, log 21. -/
def lowerPulse (cfg : Config) : List PinEvent :=
  match cfg.transport with
  | .directPin => directPulse cfg
  | .other =>
    if pulses cfg (Config.otherPulse cfg) = some 1 ∧ drivesReadWriteHigh cfg (Config.otherPulse cfg) = false then
      Config.otherPulse cfg
    else directPulse cfg

/-! ## Emitting -/

/-- Pin events appended to the pin trace and applied to the lines, in order (R10, R36). -/
def drivePins (ps : List PinEvent) (s : State) : State :=
  { s with pins := s.pins ++ ps, line := applyPins s.line ps }

/-- `emit(ev)`: append to the transport-call trace (R8); the pin trace follows by the lowering (R10). -/
def emit (ev : TransportEvent) (s : State) : State :=
  drivePins (lower s.cfg ev) { s with trace := s.trace ++ [ev] }

/-- The high nibble `b[7:4]` (R52). -/
def highNibble (b : Byte) : Nibble := b.extractLsb' 4 4

/-- The low nibble `b[3:0]` (R52). -/
def lowNibble (b : Byte) : Nibble := b.extractLsb' 0 4

/-- `setMode(m)` (R110). -/
def setMode (m : Mode) (s : State) : State := emit (.setMode m) s

/-- `write4bits(n)`: only the low four bits of the argument are used (R112). -/
def write4bits (n : Byte) (s : State) : State := emit (.write4 (lowNibble n)) s

/-- `write8bits(b)`: one transfer on 8-bit wiring (R114); on 4-bit wiring two nibbles, high first (R115). -/
def write8bits (b : Byte) (s : State) : State :=
  if fourbit s.cfg then
    write4bits ((lowNibble b).zeroExtend 8) (write4bits ((highNibble b).zeroExtend 8) (emit (.write8 b) s))
  else emit (.write8 b) s

/-- `fourbitmode()`: a pure query (R117). -/
def fourbitmode (s : State) : Bool := fourbit s.cfg

/-- `pulseEnable()`: no transport event of its own (R118). -/
def pulseEnable (s : State) : State := drivePins (lowerPulse s.cfg) s

/-- `Delay(t)`: a wait the encoder issues (R9). -/
def delay (t : Nat) (s : State) : State := emit (.delay t) s

/-- `send(value, mode)`: "selects command/data mode on the transport, then calls write8bits" (R186). It does not
check `INIT` and cannot fault. -/
def send (value : Byte) (mode : Mode) (s : State) : State := write8bits value (setMode mode s)

/-! ## Registers: the writes `REG <- v` of R8 -/

/-- `DF <- v` (R21). -/
def writeDf (v : Byte) (s : State) : State := { s with df := v }

/-- `DC <- v` (R23). -/
def writeDc (v : Byte) (s : State) : State := { s with dc := v }

/-- `DM <- v` (R24). -/
def writeDm (v : Byte) (s : State) : State := { s with dm := v }

/-- `NUMLINES <- v` (R26). -/
def writeNumlines (v : Byte) (s : State) : State := { s with numlines := v }

/-- `CURLINE <- v` (R27). -/
def writeCurline (v : Byte) (s : State) : State := { s with curline := v }

/-- `INIT <- 1` (R25, R137). -/
def setInit (s : State) : State := { s with init := true }

/-- The result of an exposed `fourbitmode()` (R117), in the model's own field (log 13). -/
def writeAnswer (v : Bool) (s : State) : State := { s with answer := some v }

/-! ## Guards and faults -/

/-- Once `FAULT` is not none "no operation is accepted and no event is emitted" (R207). -/
def accept (s : State) (k : Outcome State Fault Refusal) : Outcome State Fault Refusal :=
  match s.fault with
  | some r => .fault (.noStep r)
  | none => k

/-- Fault entry (R206): nothing emitted, no register written, `FAULT <- reason`. -/
def raise (r : FaultReason) (s : State) : State := { s with fault := some r }

/-- `require_init()` before an operation `op` with the effect `k` (R202). -/
def requireInit (op : Instr) (s : State) (k : State → State) : Outcome State Fault Refusal :=
  accept s (.next (if s.init then k s else raise (.notInitialized op) s))

/-- The first request of the host's list, and the state without it (R11, R33). -/
def takeRequest (s : State) : Option (Request × State) :=
  match s.port with
  | [] => none
  | q :: rest => some (q, { s with port := rest })

end Sys2Proof.Machine
end

