-- ==== Sys2Proof/Machine/Operands.lean ====
section
/-! DEFINITION. Operand arithmetic: the glyph slot (R87), the row clamp (R182), the row base table (R32), the
DDRAM address (R183). -/

namespace Sys2Proof.Machine

/-- `slot <- index & 0x07` (R180, D16). -/
def glyphSlot (index : Byte) : Byte := index &&& 0x07

/-- `SET_CGRAM | (slot << 3)` (R87). -/
def glyphByte (index : Byte) : Byte := 0x40 ||| (glyphSlot index <<< 3)

/-- The pattern bytes in index order (R54). -/
def patternBytes (p : Pattern) : List Byte := [p.p0, p.p1, p.p2, p.p3, p.p4, p.p5, p.p6, p.p7]

/-- `clamp_row(row)`, in 8-bit arithmetic (R182). -/
def clampRow (clamp : RowClamp) (numlines row : Byte) : Byte :=
  match clamp with
  | .ge => if numlines.ule row then numlines - 1 else row
  | .gt => if numlines.ult row then numlines - 1 else row

/-- `ROW_BASE[r]`, none outside the four entries (R32, R204). -/
def rowBaseAt (t : RowBase) (r : Byte) : Option Addr7 :=
  if r = 0 then some t.row0
  else if r = 1 then some t.row1
  else if r = 2 then some t.row2
  else if r = 3 then some t.row3
  else none

/-- `trunc_7(col + base)` of the exact sum (R183). -/
def ddramAddress (col : Byte) (base : Addr7) : Addr7 := BitVec.ofNat 7 (col.toNat + base.toNat)

end Sys2Proof.Machine
end

