-- ==== Sys2Proof/Machine/Addressing.lean ====
section
/-! DEFINITION. createChar, setCursor, write, command (43_addressing_and_data.md, R180 to R185). -/

namespace Sys2Proof.Machine

open Host (Outcome)

/-- The data bytes of a list, each by its own `send` (R180, R186). -/
def sendData (bs : List Byte) (s : State) : State := bs.foldl (fun s b => send b .data s) s

/-- `createChar(index, pattern)` (R180): nothing follows the eighth data byte. -/
def execCreateChar (index : Byte) (pattern : Pattern) (s : State) : Outcome State Fault Refusal :=
  requireInit (.createChar index pattern) s fun s =>
    sendData (patternBytes pattern) (send (glyphByte index) .command s)

/-- setCursor once its guard has passed: the row table lookup of the clamped row, its fault (R204), the
set-DDRAM-address command (R181). -/
def moveCursor (col row : Byte) (s : State) : State :=
  let r := clampRow s.cfg.rowClamp s.numlines row
  match rowBaseAt s.cfg.rowBase r with
  | some base => send (setDdramByte (ddramAddress col base)) .command s
  | none => raise (.rowOutOfTable col row r s.numlines) s

/-- `setCursor(col, row)` (R181): the `INIT` check comes first (R205). -/
def execSetCursor (col row : Byte) (s : State) : Outcome State Fault Refusal :=
  requireInit (.setCursor col row) s (moveCursor col row)

/-- `write(value)` (R184). -/
def execWrite (value : Byte) (s : State) : Outcome State Fault Refusal :=
  requireInit (.write value) s fun s => send value .data s

/-- `command(value)` (R185): "bypassing all state tracking". -/
def execCommand (value : Byte) (s : State) : Outcome State Fault Refusal :=
  requireInit (.command value) s fun s => send value .command s

end Sys2Proof.Machine
end

