-- ==== Sys2Proof/Machine/Flags.lean ====
section
/-! DEFINITION. The flag constants (R82), setting and clearing a flag (R152 to R163), the flags of begin (R131,
R136), the bytes made of a base constant and a register (R83 to R85), the shift bytes (R86). -/

namespace Sys2Proof.Machine

/-! ## Constants (R82). UNVERIFIED, log 16: the spec has the values from general knowledge. -/

def entryLeft : Byte := 0x02
def entryShiftIncrement : Byte := 0x01
def entryShiftDecrement : Byte := 0x00
def displayOn : Byte := 0x04
def cursorOn : Byte := 0x02
def cursorOff : Byte := 0x00
def blinkOn : Byte := 0x01
def blinkOff : Byte := 0x00
def displayMove : Byte := 0x08
def moveRight : Byte := 0x04
def moveLeft : Byte := 0x00
def mode8bit : Byte := 0x10
def mode4bit : Byte := 0x00
def lines2 : Byte := 0x08
def dots5x10 : Byte := 0x04

def clearBase : Byte := 0x01
def homeBase : Byte := 0x02
def entryModeBase : Byte := 0x04
def displayControlBase : Byte := 0x08
def shiftBase : Byte := 0x10
def functionSetBase : Byte := 0x20

/-! ## Flags -/

/-- Set a flag: "set for the positive name" (D17). -/
def setFlag (reg flag : Byte) : Byte := reg ||| flag

/-- Clear a flag: "clear for the `no` name" (D17). -/
def clearFlag (reg flag : Byte) : Byte := reg &&& ~~~flag

/-- `set_function_flags(fb, rows, charsize)`: the whole of `DF` (R131, D13, D33). -/
def functionFlags (fb : Bool) (rows charsize : Byte) : Byte :=
  (if fb then mode4bit else mode8bit)
    ||| (if (1#8).ult rows then lines2 else 0)
    ||| (if charsize ≠ 0 ∧ rows = 1 then dots5x10 else 0)

/-- `DC` after begin: "display on, cursor/blink off" (R136). -/
def baselineControl : Byte := displayOn ||| cursorOff ||| blinkOff

/-- `DM` after begin: left-to-right, no autoscroll (R136). -/
def baselineEntry : Byte := entryLeft ||| entryShiftDecrement

/-! ## Bytes -/

/-- The function-set byte `0x20 | DF` (R83). -/
def functionSetByte (df : Byte) : Byte := functionSetBase ||| df

/-- The display-control byte `0x08 | DC` (R84). -/
def controlByte (dc : Byte) : Byte := displayControlBase ||| dc

/-- The entry-mode byte `0x04 | DM` (R85). -/
def entryByte (dm : Byte) : Byte := entryModeBase ||| dm

/-- scrollDisplayLeft's byte (R86). -/
def shiftLeftByte : Byte := shiftBase ||| displayMove ||| moveLeft

/-- scrollDisplayRight's byte (R86). -/
def shiftRightByte : Byte := shiftBase ||| displayMove ||| moveRight

end Sys2Proof.Machine
end

