-- ==== Sys2Proof/Machine/Display.lean ====
section
/-! DEFINITION. clear and home (R150, R151), display control (R152 to R157), display shift (R158, R159), entry
mode (R160 to R163): 42_display_control.md. -/

namespace Sys2Proof.Machine

open Host (Outcome)

/-- Write `DC`, then "re-send the full display-control command" (R84, 42_display_control.md section 2). -/
def resendControl (dc : Byte) (s : State) : State :=
  let s := writeDc dc s
  send (controlByte s.dc) .command s

/-- Write `DM`, then re-send the "full entry-mode command" (R85, 42_display_control.md section 4). -/
def resendEntry (dm : Byte) (s : State) : State :=
  let s := writeDm dm s
  send (entryByte s.dm) .command s

/-- `clear()` (R150): the settle delay is always emitted. -/
def execClear (s : State) : Outcome State Fault Refusal :=
  requireInit .clear s fun s => delay s.cfg.timing.clear (send clearBase .command s)

/-- `home()` (R151): no `Delay` follows (D18). -/
def execHome (s : State) : Outcome State Fault Refusal :=
  requireInit .home s fun s => send homeBase .command s

/-- `noDisplay()` (R152). -/
def execNoDisplay (s : State) : Outcome State Fault Refusal :=
  requireInit .noDisplay s fun s => resendControl (clearFlag s.dc displayOn) s

/-- `display()` (R153). -/
def execDisplay (s : State) : Outcome State Fault Refusal :=
  requireInit .display s fun s => resendControl (setFlag s.dc displayOn) s

/-- `noCursor()` (R154). -/
def execNoCursor (s : State) : Outcome State Fault Refusal :=
  requireInit .noCursor s fun s => resendControl (clearFlag s.dc cursorOn) s

/-- `cursor()` (R155). -/
def execCursor (s : State) : Outcome State Fault Refusal :=
  requireInit .cursor s fun s => resendControl (setFlag s.dc cursorOn) s

/-- `noBlink()` (R156). -/
def execNoBlink (s : State) : Outcome State Fault Refusal :=
  requireInit .noBlink s fun s => resendControl (clearFlag s.dc blinkOn) s

/-- `blink()` (R157). -/
def execBlink (s : State) : Outcome State Fault Refusal :=
  requireInit .blink s fun s => resendControl (setFlag s.dc blinkOn) s

/-- `scrollDisplayLeft()` (R158): `DM` is not written. -/
def execScrollDisplayLeft (s : State) : Outcome State Fault Refusal :=
  requireInit .scrollDisplayLeft s fun s => send shiftLeftByte .command s

/-- `scrollDisplayRight()` (R159). -/
def execScrollDisplayRight (s : State) : Outcome State Fault Refusal :=
  requireInit .scrollDisplayRight s fun s => send shiftRightByte .command s

/-- `leftToRight()` (R160). -/
def execLeftToRight (s : State) : Outcome State Fault Refusal :=
  requireInit .leftToRight s fun s => resendEntry (setFlag s.dm entryLeft) s

/-- `rightToLeft()` (R161). -/
def execRightToLeft (s : State) : Outcome State Fault Refusal :=
  requireInit .rightToLeft s fun s => resendEntry (clearFlag s.dm entryLeft) s

/-- `autoscroll()` (R162). -/
def execAutoscroll (s : State) : Outcome State Fault Refusal :=
  requireInit .autoscroll s fun s => resendEntry (setFlag s.dm entryShiftIncrement) s

/-- `noAutoscroll()` (R163). -/
def execNoAutoscroll (s : State) : Outcome State Fault Refusal :=
  requireInit .noAutoscroll s fun s => resendEntry (clearFlag s.dm entryShiftIncrement) s

end Sys2Proof.Machine
end

