-- ==== Sys2Proof/Machine/Init.lean ====
section
/-! DEFINITION. begin and its parts (41_init.md, R130 to R138). -/

namespace Sys2Proof.Machine

open Host (Outcome)

/-- `set_function_flags` and `NUMLINES <- rows; CURLINE <- 0` (R131, R132). -/
def initRegisters (rows charsize : Byte) (s : State) : State :=
  writeCurline 0 (writeNumlines rows (writeDf (functionFlags (fourbitmode s) rows charsize) s))

/-- A bare initialisation nibble: `emit(SetMode(Command)); write4bits(n)` (R134). -/
def initNibble (n : Byte) (s : State) : State := write4bits n (setMode .command s)

/-- `init_4bit()` (R134, R89). -/
def init4bit (s : State) : State :=
  let t := s.cfg.timing
  let s := delay t.init4First (initNibble 0x3 s)
  let s := delay t.init4Second (initNibble 0x3 s)
  let s := delay t.init4Third (initNibble 0x3 s)
  initNibble 0x2 s

/-- `init_8bit()`, by `INIT8_FS_REPEATS` (R135). -/
def init8bit (s : State) : State :=
  let t := s.cfg.timing
  match s.cfg.fsRepeats with
  | .zero => s
  | .one => delay t.init8First (send (functionSetByte s.df) .command s)
  | .three =>
    let s := delay t.init8First (send (functionSetByte s.df) .command s)
    let s := delay t.init8Second (send (functionSetByte s.df) .command s)
    send (functionSetByte s.df) .command s

/-- `baseline()` (R136). -/
def baseline (s : State) : State :=
  let s := send (functionSetByte s.df) .command s
  let s := writeDc baselineControl s
  let s := send (controlByte s.dc) .command s
  let s := delay s.cfg.timing.clear (send clearBase .command s)
  let s := writeDm baselineEntry s
  send (entryByte s.dm) .command s

/-- What begin does once its guard has passed (R130). `INIT <- 1` is its last action (R137). -/
def beginBody (rows charsize : Byte) (s : State) : State :=
  let s := initRegisters rows charsize s
  let s := delay s.cfg.timing.powerOn s
  let s := if fourbitmode s then init4bit s else init8bit s
  setInit (baseline s)

/-- `begin(cols, rows, charsize)` (R130). `cols` has no effect (R138); a second begin raises BeginTwice (R203). -/
def execBegin (_cols rows charsize : Byte) (s : State) : Outcome State Fault Refusal :=
  accept s (.next (if s.init then raise .beginTwice s else beginBody rows charsize s))

end Sys2Proof.Machine
end

