-- ==== Sys2Proof/Machine/Transport.lean ====
section
/-! DEFINITION. The internal calls as instructions: `send` (R186) and the sequencer's primitives (R110 to R118).
They stand behind the `INIT` check (R186); after a fault they emit nothing (R207). Log 2. -/

namespace Sys2Proof.Machine

open Host (Outcome)

/-- `send(value, mode)` (R186). -/
def execSend (value : Byte) (mode : Mode) (s : State) : Outcome State Fault Refusal :=
  accept s (.next (send value mode s))

/-- `setMode(m)` (R110). -/
def execSetMode (m : Mode) (s : State) : Outcome State Fault Refusal :=
  accept s (.next (setMode m s))

/-- `write4bits(n)` (R112), on either wiring (R120). -/
def execWrite4bits (n : Byte) (s : State) : Outcome State Fault Refusal :=
  accept s (.next (write4bits n s))

/-- `write8bits(b)` (R114, R115). -/
def execWrite8bits (b : Byte) (s : State) : Outcome State Fault Refusal :=
  accept s (.next (write8bits b s))

/-- `fourbitmode()` (R117): no event, no state written; the result goes to the model's own field for it (log 13). -/
def execFourbitmode (s : State) : Outcome State Fault Refusal :=
  accept s (.next (writeAnswer (fourbitmode s) s))

/-- `pulseEnable()` (R118). -/
def execPulseEnable (s : State) : Outcome State Fault Refusal :=
  accept s (.next (pulseEnable s))

end Sys2Proof.Machine
end

