-- ==== Sys2Proof/Machine/Words.lean ====
section
/-! DEFINITION. The transfers as instructions: the eight command classes (R72 to R80) and the data byte (R81).
"Every transfer is made by `send(byte, mode)`" (R71), which does not check `INIT` (R186): that is the meaning.
What the HD44780 does with the byte is outside the block (R2). Log 3. -/

namespace Sys2Proof.Machine

open Host (Outcome)

/-- clear (R73). -/
def execCmdClear (s : State) : Outcome State Fault Refusal :=
  accept s (.next (send clearByte .command s))

/-- return-home (R74). -/
def execCmdReturnHome (x : BitVec 1) (s : State) : Outcome State Fault Refusal :=
  accept s (.next (send (returnHomeByte x) .command s))

/-- set-entry-mode (R75). -/
def execCmdEntryMode (id sh : Bool) (s : State) : Outcome State Fault Refusal :=
  accept s (.next (send (entryModeByte id sh) .command s))

/-- set-display-control (R76). -/
def execCmdDisplayControl (d c b : Bool) (s : State) : Outcome State Fault Refusal :=
  accept s (.next (send (displayControlByte d c b) .command s))

/-- shift (R77). -/
def execCmdShift (sc rl : Bool) (x : BitVec 2) (s : State) : Outcome State Fault Refusal :=
  accept s (.next (send (shiftByte sc rl x) .command s))

/-- set-function (R78). -/
def execCmdFunctionSet (dl n f : Bool) (x : BitVec 2) (s : State) : Outcome State Fault Refusal :=
  accept s (.next (send (functionSetClassByte dl n f x) .command s))

/-- set-CGRAM-address (R79). -/
def execCmdSetCgramAddr (a : Addr6) (s : State) : Outcome State Fault Refusal :=
  accept s (.next (send (setCgramByte a) .command s))

/-- set-DDRAM-address (R80). -/
def execCmdSetDdramAddr (a : Addr7) (s : State) : Outcome State Fault Refusal :=
  accept s (.next (send (setDdramByte a) .command s))

/-- A data byte (R81): "the block never changes its bits". -/
def execDataByte (v : Byte) (s : State) : Outcome State Fault Refusal :=
  accept s (.next (send v .data s))

end Sys2Proof.Machine
end

