-- ==== Sys2Proof/Machine/Dispatch.lean ====
section
/-! DEFINITION. One arm per constructor of Instr, each one direct call of its meaning. -/

namespace Sys2Proof.Machine

def exec (i : Instr) (s : State) : Host.Outcome State Fault Refusal :=
  match i with
  | .begin cols rows charsize => Sys2Proof.Machine.execBegin cols rows charsize s
  | .clear => Sys2Proof.Machine.execClear s
  | .home => Sys2Proof.Machine.execHome s
  | .noDisplay => Sys2Proof.Machine.execNoDisplay s
  | .display => Sys2Proof.Machine.execDisplay s
  | .noCursor => Sys2Proof.Machine.execNoCursor s
  | .cursor => Sys2Proof.Machine.execCursor s
  | .noBlink => Sys2Proof.Machine.execNoBlink s
  | .blink => Sys2Proof.Machine.execBlink s
  | .scrollDisplayLeft => Sys2Proof.Machine.execScrollDisplayLeft s
  | .scrollDisplayRight => Sys2Proof.Machine.execScrollDisplayRight s
  | .leftToRight => Sys2Proof.Machine.execLeftToRight s
  | .rightToLeft => Sys2Proof.Machine.execRightToLeft s
  | .autoscroll => Sys2Proof.Machine.execAutoscroll s
  | .noAutoscroll => Sys2Proof.Machine.execNoAutoscroll s
  | .createChar index pattern => Sys2Proof.Machine.execCreateChar index pattern s
  | .setCursor col row => Sys2Proof.Machine.execSetCursor col row s
  | .write value => Sys2Proof.Machine.execWrite value s
  | .command value => Sys2Proof.Machine.execCommand value s
  | .send value mode => Sys2Proof.Machine.execSend value mode s
  | .setMode m => Sys2Proof.Machine.execSetMode m s
  | .write4bits n => Sys2Proof.Machine.execWrite4bits n s
  | .write8bits b => Sys2Proof.Machine.execWrite8bits b s
  | .fourbitmode => Sys2Proof.Machine.execFourbitmode s
  | .pulseEnable => Sys2Proof.Machine.execPulseEnable s
  | .cmdClear => Sys2Proof.Machine.execCmdClear s
  | .cmdReturnHome x => Sys2Proof.Machine.execCmdReturnHome x s
  | .cmdEntryMode id sh => Sys2Proof.Machine.execCmdEntryMode id sh s
  | .cmdDisplayControl d c b => Sys2Proof.Machine.execCmdDisplayControl d c b s
  | .cmdShift sc rl x => Sys2Proof.Machine.execCmdShift sc rl x s
  | .cmdFunctionSet dl n f x => Sys2Proof.Machine.execCmdFunctionSet dl n f x s
  | .cmdSetCgramAddr a => Sys2Proof.Machine.execCmdSetCgramAddr a s
  | .cmdSetDdramAddr a => Sys2Proof.Machine.execCmdSetDdramAddr a s
  | .dataByte v => Sys2Proof.Machine.execDataByte v s

end Sys2Proof.Machine
end

