-- ==== Sys2Proof/Machine/Step.lean ====
section
/-! DEFINITION. One step: the next request of the host's list, decoded and run to completion (R11, R12, R57). -/

namespace Sys2Proof.Machine

/-- One step. After a fault there is none (R207); with nothing to issue the block is idle and emits nothing
(R214); a request that names no instruction of its interface is refused by name (R92). -/
def step (s : State) : Host.Outcome State Fault Refusal :=
  match s.fault with
  | some r => .fault (.noStep r)
  | none =>
    match takeRequest s with
    | none => .next s
    | some (q, s') =>
      match q.decode with
      | .ok i => exec i s'
      | .error e => .refused (.undecodable e)

/-- `s` with the word of an instruction, numbered as the opcode table numbers it, first in the host's list, where
`step` takes its next request (log 1, log 4). -/
def State.withFetchWord (s : State) (nbits w : Nat) : State :=
  { s with port := .word (w % 2 ^ nbits) :: s.port }

end Sys2Proof.Machine
end

