-- ==== Sys2Proof/Machine/Assembly.lean ====
section
/-! DEFINITION. The assembly syntax of R94 and its pseudo-operations: from the bytes of a program's text to the
host's list of operations, and the text of an operation. Log 15. -/

namespace Sys2Proof.Machine

/-- The ASCII code of a character (R94, 93_implementation_defined.md I12). -/
def ascii (c : Char) : Byte := BitVec.ofNat 8 c.toNat

/-- A word of the syntax as its bytes. -/
def text (cs : List Char) : List Byte := cs.map ascii

/-- Why a text is no program. -/
inductive AsmError where
  /-- a byte that begins no token -/
  | unexpectedByte (b : Byte)
  /-- a number, a string or a character literal that is not finished -/
  | unterminated
  /-- a name outside R70 and the pseudo-operations of R94 -/
  | unknownName (n : List Byte)
  /-- operands of another number or kind than the operation's (R70) -/
  | badOperands (n : List Byte)
  /-- not of the form `name(arg, ...)` -/
  | badSyntax
  deriving DecidableEq, Repr

/-! ## Tokens -/

inductive Token where
  | name (n : List Byte)
  | num (v : Nat)
  | str (s : List Byte)
  | lparen
  | rparen
  | lbracket
  | rbracket
  | comma
  | newline
  deriving DecidableEq, Repr

/-- What has been read of the token at hand. -/
inductive LexState where
  | start
  | name (revName : List Byte)
  | zero
  | hexStart
  | hex (v : Nat)
  | dec (v : Nat)
  | str (revStr : List Byte)
  | charStart
  | charEnd (c : Byte)
  | comment
  deriving DecidableEq, Repr

/-- The value of a decimal digit. -/
def decDigit (b : Byte) : Option Nat :=
  if 0x30 ≤ b.toNat ∧ b.toNat ≤ 0x39 then some (b.toNat - 0x30) else none

/-- The value of a hexadecimal digit, either case. -/
def hexDigit (b : Byte) : Option Nat :=
  if 0x30 ≤ b.toNat ∧ b.toNat ≤ 0x39 then some (b.toNat - 0x30)
  else if 0x41 ≤ b.toNat ∧ b.toNat ≤ 0x46 then some (b.toNat - 0x37)
  else if 0x61 ≤ b.toNat ∧ b.toNat ≤ 0x66 then some (b.toNat - 0x57)
  else none

/-- A letter, which begins a name. -/
def isLetter (b : Byte) : Bool :=
  decide ((0x41 ≤ b.toNat ∧ b.toNat ≤ 0x5A) ∨ (0x61 ≤ b.toNat ∧ b.toNat ≤ 0x7A))

/-- The tokens read, latest first, and the state of reading. -/
abbrev Lexed := List Token × LexState

/-- A byte where a token may begin. -/
def lexStart (toks : List Token) (b : Byte) : Except AsmError Lexed :=
  if b = ascii ' ' ∨ b = 0x09 ∨ b = 0x0D then .ok (toks, .start)
  else if b = 0x0A then .ok (.newline :: toks, .start)
  else if b = ascii ';' then .ok (toks, .comment)
  else if b = ascii '(' then .ok (.lparen :: toks, .start)
  else if b = ascii ')' then .ok (.rparen :: toks, .start)
  else if b = ascii '[' then .ok (.lbracket :: toks, .start)
  else if b = ascii ']' then .ok (.rbracket :: toks, .start)
  else if b = ascii ',' then .ok (.comma :: toks, .start)
  else if b = 0x22 then .ok (toks, .str [])
  else if b = 0x27 then .ok (toks, .charStart)
  else if b = ascii '0' then .ok (toks, .zero)
  else if isLetter b then .ok (toks, .name [b])
  else
    match decDigit b with
    | some d => .ok (toks, .dec d)
    | none => .error (.unexpectedByte b)

/-- One byte of the text. -/
def lexByte (l : Lexed) (b : Byte) : Except AsmError Lexed :=
  match l with
  | (toks, .start) => lexStart toks b
  | (toks, .name n) => if isLetter b ∨ (decDigit b).isSome then .ok (toks, .name (b :: n)) else lexStart (.name n.reverse :: toks) b
  | (toks, .zero) =>
    if b = ascii 'x' then .ok (toks, .hexStart)
    else
      match decDigit b with
      | some d => .ok (toks, .dec d)
      | none => lexStart (.num 0 :: toks) b
  | (toks, .hexStart) =>
    match hexDigit b with
    | some d => .ok (toks, .hex d)
    | none => .error .unterminated
  | (toks, .hex v) =>
    match hexDigit b with
    | some d => .ok (toks, .hex (16 * v + d))
    | none => lexStart (.num v :: toks) b
  | (toks, .dec v) =>
    match decDigit b with
    | some d => .ok (toks, .dec (10 * v + d))
    | none => lexStart (.num v :: toks) b
  | (toks, .str s) =>
    if b = 0x22 then .ok (.str s.reverse :: toks, .start)
    else if b = 0x0A then .error .unterminated
    else .ok (toks, .str (b :: s))
  | (toks, .charStart) => if b.toNat < 128 ∧ b ≠ 0x0A then .ok (toks, .charEnd b) else .error .unterminated
  | (toks, .charEnd c) => if b = 0x27 then .ok (.num c.toNat :: toks, .start) else .error .unterminated
  | (toks, .comment) => if b = 0x0A then .ok (.newline :: toks, .start) else .ok (toks, .comment)

/-- Every byte in turn. -/
def lexBytes : Lexed → List Byte → Except AsmError Lexed
  | l, [] => .ok l
  | l, b :: bs =>
    match lexByte l b with
    | .ok l' => lexBytes l' bs
    | .error e => .error e

/-- The tokens of a text. -/
def tokens (bs : List Byte) : Except AsmError (List Token) :=
  match lexBytes ([], .start) bs with
  | .error e => .error e
  | .ok (toks, .start) | .ok (toks, .comment) => .ok toks.reverse
  | .ok (toks, .name n) => .ok (Token.name n.reverse :: toks).reverse
  | .ok (toks, .zero) => .ok (Token.num 0 :: toks).reverse
  | .ok (toks, .hex v) | .ok (toks, .dec v) => .ok (Token.num v :: toks).reverse
  | .ok (_, .hexStart) | .ok (_, .str _) | .ok (_, .charStart) | .ok (_, .charEnd _) => .error .unterminated

/-! ## Operands -/

inductive Arg where
  | num (v : Nat)
  | list (vs : List Nat)
  | str (s : List Byte)
  deriving DecidableEq, Repr

/-- Where the reading of an operand list stands: before the first operand, after a comma, after an operand,
inside a bracketed list. -/
inductive ArgState where
  | first
  | operand
  | after
  | element (revVals : List Nat)
  | afterElement (revVals : List Nat)
  | done
  deriving DecidableEq, Repr

/-- The operands of `name(arg, ...)`, read after the opening parenthesis. -/
def readArgs : ArgState → List Arg → List Token → Option (List Arg)
  | .done, acc, [] => some acc.reverse
  | .first, acc, .rparen :: ts => readArgs .done acc ts
  | .first, acc, .num v :: ts => readArgs .after (.num v :: acc) ts
  | .first, acc, .str s :: ts => readArgs .after (.str s :: acc) ts
  | .first, acc, .lbracket :: ts => readArgs (.element []) acc ts
  | .operand, acc, .num v :: ts => readArgs .after (.num v :: acc) ts
  | .operand, acc, .str s :: ts => readArgs .after (.str s :: acc) ts
  | .operand, acc, .lbracket :: ts => readArgs (.element []) acc ts
  | .after, acc, .comma :: ts => readArgs .operand acc ts
  | .after, acc, .rparen :: ts => readArgs .done acc ts
  | .element vs, acc, .num v :: ts => readArgs (.afterElement (v :: vs)) acc ts
  | .afterElement vs, acc, .comma :: ts => readArgs (.element vs) acc ts
  | .afterElement vs, acc, .rbracket :: ts => readArgs .after (.list vs.reverse :: acc) ts
  | _, _, _ => none

/-- An operand as its 8-bit value: "refused by type" when wider (D3). -/
def byteOf (v : Nat) : Option Byte := if v < 256 then some (BitVec.ofNat 8 v) else none

/-- Eight pattern bytes (R70). -/
def patternOf : List Nat → Option Pattern
  | [a, b, c, d, e, f, g, h] =>
    match byteOf a, byteOf b, byteOf c, byteOf d, byteOf e, byteOf f, byteOf g, byteOf h with
    | some p0, some p1, some p2, some p3, some p4, some p5, some p6, some p7 => some ⟨p0, p1, p2, p3, p4, p5, p6, p7⟩
    | _, _, _, _, _, _, _, _ => none
  | _ => none

/-! ## Pseudo-operations (R94) -/

/-- `print("s")` expands to `write(c)` for each byte `c` of `s`, in order. -/
def expandPrint (s : List Byte) : List Instr := s.map .write

/-- `clearNoWait` expands to `command(0x01)`. -/
def expandClearNoWait : List Instr := [.command 0x01]

/-! ## Names -/

def nameBegin : List Byte := text ['b', 'e', 'g', 'i', 'n']
def nameClear : List Byte := text ['c', 'l', 'e', 'a', 'r']
def nameHome : List Byte := text ['h', 'o', 'm', 'e']
def nameNoDisplay : List Byte := text ['n', 'o', 'D', 'i', 's', 'p', 'l', 'a', 'y']
def nameDisplay : List Byte := text ['d', 'i', 's', 'p', 'l', 'a', 'y']
def nameNoCursor : List Byte := text ['n', 'o', 'C', 'u', 'r', 's', 'o', 'r']
def nameCursor : List Byte := text ['c', 'u', 'r', 's', 'o', 'r']
def nameNoBlink : List Byte := text ['n', 'o', 'B', 'l', 'i', 'n', 'k']
def nameBlink : List Byte := text ['b', 'l', 'i', 'n', 'k']
def nameScrollDisplay : List Byte := text ['s', 'c', 'r', 'o', 'l', 'l', 'D', 'i', 's', 'p', 'l', 'a', 'y']
def nameScrollDisplayLeft : List Byte := nameScrollDisplay ++ text ['L', 'e', 'f', 't']
def nameScrollDisplayRight : List Byte := nameScrollDisplay ++ text ['R', 'i', 'g', 'h', 't']
def nameLeftToRight : List Byte := text ['l', 'e', 'f', 't', 'T', 'o', 'R', 'i', 'g', 'h', 't']
def nameRightToLeft : List Byte := text ['r', 'i', 'g', 'h', 't', 'T', 'o', 'L', 'e', 'f', 't']
def nameAutoscroll : List Byte := text ['a', 'u', 't', 'o', 's', 'c', 'r', 'o', 'l', 'l']
def nameNoAutoscroll : List Byte := text ['n', 'o', 'A', 'u', 't', 'o', 's', 'c', 'r', 'o', 'l', 'l']
def nameCreateChar : List Byte := text ['c', 'r', 'e', 'a', 't', 'e', 'C', 'h', 'a', 'r']
def nameSetCursor : List Byte := text ['s', 'e', 't', 'C', 'u', 'r', 's', 'o', 'r']
def nameWrite : List Byte := text ['w', 'r', 'i', 't', 'e']
def nameCommand : List Byte := text ['c', 'o', 'm', 'm', 'a', 'n', 'd']
def namePrint : List Byte := text ['p', 'r', 'i', 'n', 't']
def nameClearNoWait : List Byte := text ['c', 'l', 'e', 'a', 'r', 'N', 'o', 'W', 'a', 'i', 't']

/-- The operations of R70 without operands, by name. -/
def plainOperations : List (List Byte × Instr) :=
  [(nameClear, .clear), (nameHome, .home),
   (nameNoDisplay, .noDisplay), (nameDisplay, .display),
   (nameNoCursor, .noCursor), (nameCursor, .cursor),
   (nameNoBlink, .noBlink), (nameBlink, .blink),
   (nameScrollDisplayLeft, .scrollDisplayLeft), (nameScrollDisplayRight, .scrollDisplayRight),
   (nameLeftToRight, .leftToRight), (nameRightToLeft, .rightToLeft),
   (nameAutoscroll, .autoscroll), (nameNoAutoscroll, .noAutoscroll)]

/-- The operation of a name without operands. -/
def plainOperation (n : List Byte) : Option Instr := plainOperations.lookup n

/-! ## Statements -/

/-- The operands of begin. -/
def beginOf : List Arg → Option (List Instr)
  | [.num a, .num b, .num c] =>
    match byteOf a, byteOf b, byteOf c with
    | some cols, some rows, some charsize => some [.begin cols rows charsize]
    | _, _, _ => none
  | _ => none

/-- The operands of createChar. -/
def createCharOf : List Arg → Option (List Instr)
  | [.num a, .list vs] =>
    match byteOf a, patternOf vs with
    | some index, some p => some [.createChar index p]
    | _, _ => none
  | _ => none

/-- The operands of setCursor. -/
def setCursorOf : List Arg → Option (List Instr)
  | [.num a, .num b] =>
    match byteOf a, byteOf b with
    | some col, some row => some [.setCursor col row]
    | _, _ => none
  | _ => none

/-- The operand of write and of command. -/
def oneByteOf (mk : Byte → Instr) : List Arg → Option (List Instr)
  | [.num a] => (byteOf a).map fun v => [mk v]
  | _ => none

/-- The operand of print. -/
def printOf : List Arg → Option (List Instr)
  | [.str s] => some (expandPrint s)
  | _ => none

/-- No operand. -/
def noOperandsOf (is : List Instr) : List Arg → Option (List Instr)
  | [] => some is
  | _ => none

/-- How a name reads its operands; none for an unknown name. -/
def readerOf (n : List Byte) : Option (List Arg → Option (List Instr)) :=
  if n = nameBegin then some beginOf
  else if n = nameCreateChar then some createCharOf
  else if n = nameSetCursor then some setCursorOf
  else if n = nameWrite then some (oneByteOf .write)
  else if n = nameCommand then some (oneByteOf .command)
  else if n = namePrint then some printOf
  else if n = nameClearNoWait then some (noOperandsOf expandClearNoWait)
  else (plainOperation n).map fun i => noOperandsOf [i]

/-- One line: nothing, `name(arg, ...)`, or the bare `clearNoWait` (R94). -/
def statement : List Token → Except AsmError (List Instr)
  | [] => .ok []
  | [.name n] => if n = nameClearNoWait then .ok expandClearNoWait else .error .badSyntax
  | .name n :: .lparen :: ts =>
    match readerOf n, readArgs .first [] ts with
    | none, _ => .error (.unknownName n)
    | _, none => .error .badSyntax
    | some f, some args =>
      match f args with
      | some is => .ok is
      | none => .error (.badOperands n)
  | _ => .error .badSyntax

/-- "One per line" (R94): the statements of the lines, the tokens of the line at hand first read last. -/
def statements : List Token → List Token → Except AsmError (List Instr)
  | line, [] => statement line.reverse
  | line, .newline :: ts =>
    match statement line.reverse with
    | .error e => .error e
    | .ok is =>
      match statements [] ts with
      | .error e => .error e
      | .ok rest => .ok (is ++ rest)
  | line, t :: ts => statements (t :: line) ts

/-- The operations of a program's text, pseudo-operations expanded (R94). -/
def assemble (bs : List Byte) : Except AsmError (List Instr) :=
  match tokens bs with
  | .error e => .error e
  | .ok ts => statements [] ts

/-! ## Text -/

/-- The hexadecimal digit of a nibble. -/
def digitOf (n : Nibble) : Byte := if n.toNat < 10 then BitVec.ofNat 8 (0x30 + n.toNat) else BitVec.ofNat 8 (0x37 + n.toNat)

/-- An operand as `0xNN` (R7, R94). -/
def renderByte (b : Byte) : List Byte := [ascii '0', ascii 'x', digitOf (highNibble b), digitOf (lowNibble b)]

/-- Operands with a comma and a space between them. -/
def renderList : List Byte → List Byte
  | [] => []
  | [b] => renderByte b
  | b :: bs => renderByte b ++ [ascii ',', ascii ' '] ++ renderList bs

/-- `name(arg, ...)` with byte operands. -/
def renderCall (name : List Byte) (args : List Byte) : List Byte :=
  name ++ [ascii '('] ++ renderList args ++ [ascii ')']

/-- The text of an operation of the input port (R94); none for the other instructions. -/
def render : Instr → Option (List Byte)
  | .begin cols rows charsize => some (renderCall nameBegin [cols, rows, charsize])
  | .clear => some (renderCall nameClear [])
  | .home => some (renderCall nameHome [])
  | .noDisplay => some (renderCall nameNoDisplay [])
  | .display => some (renderCall nameDisplay [])
  | .noCursor => some (renderCall nameNoCursor [])
  | .cursor => some (renderCall nameCursor [])
  | .noBlink => some (renderCall nameNoBlink [])
  | .blink => some (renderCall nameBlink [])
  | .scrollDisplayLeft => some (renderCall nameScrollDisplayLeft [])
  | .scrollDisplayRight => some (renderCall nameScrollDisplayRight [])
  | .leftToRight => some (renderCall nameLeftToRight [])
  | .rightToLeft => some (renderCall nameRightToLeft [])
  | .autoscroll => some (renderCall nameAutoscroll [])
  | .noAutoscroll => some (renderCall nameNoAutoscroll [])
  | .createChar index pattern => some (nameCreateChar ++ [ascii '('] ++ renderByte index ++ [ascii ',', ascii ' ', ascii '['] ++ renderList [pattern.p0, pattern.p1, pattern.p2, pattern.p3, pattern.p4, pattern.p5, pattern.p6, pattern.p7] ++ [ascii ']', ascii ')'])
  | .setCursor col row => some (renderCall nameSetCursor [col, row])
  | .write value => some (renderCall nameWrite [value])
  | .command value => some (renderCall nameCommand [value])
  | .send _ _ | .setMode _ | .write4bits _ | .write8bits _ | .fourbitmode | .pulseEnable => none
  | .cmdClear | .cmdReturnHome _ | .cmdEntryMode _ _ | .cmdDisplayControl _ _ _ | .cmdShift _ _ _ => none
  | .cmdFunctionSet _ _ _ _ | .cmdSetCgramAddr _ | .cmdSetDdramAddr _ | .dataByte _ => none

/-! ## A program before the block -/

/-- The host's list of operations behind what is already to be issued (R11, log 1). -/
def State.load (s : State) (is : List Instr) : State := { s with port := s.port ++ is.map .op }

end Sys2Proof.Machine
end

