-- ==== Sys2Proof/Safety.lean ====
section
/-! DEFINITION. The terms in which statements speak of the machine: what a run without a fault is, what a next
state keeps, what an operation emits, the invariants. -/

namespace Sys2Proof.Machine

/-! ## States -/

/-- "Every claim about a run takes 'no fault' as a premise" (R207). -/
def Safe (s : State) : Prop := s.fault = none

/-- The state in which an operation of R70 other than begin has its effect: no fault, begin has run (R202, R207). -/
def Running (s : State) : Prop := s.fault = none ∧ s.init = true

/-- Every field but the two traces and the lines is the same. -/
structure SameRegisters (s t : State) : Prop where
  cfg : t.cfg = s.cfg
  df : t.df = s.df
  dc : t.dc = s.dc
  dm : t.dm = s.dm
  init : t.init = s.init
  curline : t.curline = s.curline
  numlines : t.numlines = s.numlines
  fault : t.fault = s.fault
  answer : t.answer = s.answer
  port : t.port = s.port

/-! ## What is emitted -/

/-- The last level a pin trace drives a pin to; none if it does not drive it (R36, R122). -/
def lastLevel : List PinEvent → PinId → Option Bool
  | [], _ => none
  | .drive q v :: es, p => (lastLevel es p).or (if q = p then some v else none)
  | .wait _ :: es, p => lastLevel es p

/-- The pin events `ps` went out from `s` to `t`: appended to the pin trace, and each line at the level last
driven, or as before if none of them drives it (R10, R36). -/
def DrivesPins (s t : State) (ps : List PinEvent) : Prop :=
  t.pins = s.pins ++ ps ∧ ∀ p, lineLevel t.line p = (lastLevel ps p).or (lineLevel s.line p)

/-- The events `evs` went out from `s` to `t`: appended to the transport-call trace, their lowering to the pins
(R8, R9, R10). -/
def Emits (s t : State) (evs : List TransportEvent) : Prop :=
  t.trace = s.trace ++ evs ∧ DrivesPins s t (evs.flatMap (lower s.cfg))

/-- The events of one transfer (R186, R114, R115): the mode, the byte, and on 4-bit wiring its nibbles, high first. -/
def transferEvents (cfg : Config) (m : Mode) (b : Byte) : List TransportEvent :=
  .setMode m :: .write8 b ::
    (if fourbit cfg then [.write4 (BitVec.ofNat 4 (b.toNat / 16)), .write4 (BitVec.ofNat 4 (b.toNat % 16))] else [])

/-! ## Rows -/

/-- The clamped row as a number: `NUMLINES - 1` in 8-bit arithmetic when the row is over, else the row (R182). -/
def clampedRow (clamp : RowClamp) (numlines row : Nat) : Nat :=
  match clamp with
  | .ge => if numlines ≤ row then (numlines + 255) % 256 else row
  | .gt => if numlines < row then (numlines + 255) % 256 else row

/-! ## begin -/

/-- The flags begin gives `DF`, as a number (R131): bit 4 for 8-bit wiring, bit 3 for more than one row, bit 2 for a
non-zero `charsize` on exactly one row. -/
def beginFlags (fb : Bool) (rows charsize : Byte) : Byte :=
  BitVec.ofNat 8 ((if fb then 0 else 16) + (if 1 < rows.toNat then 8 else 0)
    + (if charsize ≠ 0 ∧ rows = 1 then 4 else 0))

/-- The registers begin leaves (R130): all six of R28's row for it. -/
def beginRegisters (rows charsize : Byte) (s : State) : State :=
  { s with
    df := beginFlags (fourbit s.cfg) rows charsize
    dc := 0x04
    dm := 0x02
    numlines := rows
    curline := 0
    init := true }

/-! ## Invariants -/

/-- "`DF & 0xE3 = 0`, `DC & 0xF8 = 0` and `DM & 0xFC = 0` hold in every state that `INIT = 1` reaches" (R22). -/
def FlagsInFields (s : State) : Prop :=
  s.init = true → s.df &&& 0xE3 = 0 ∧ s.dc &&& 0xF8 = 0 ∧ s.dm &&& 0xFC = 0

/-- "`LINE[p]` after a pin trace is the level of the last `Drive(p, ·)` in it, or `U` if there is none" (R122), and
the line map is in its canonical form (log 10). -/
def LinesFollowPins (s : State) : Prop :=
  lineWf s.line = true ∧ ∀ p, lineLevel s.line p = lastLevel s.pins p

/-- "Every transfer therefore leaves `LINE[E_PIN] = 0`" (R118): on a direct-pin block whose enable pin is not its
register-select pin, the enable line is not at 1. -/
def EnableLow (s : State) : Prop :=
  s.cfg.transport = .directPin → s.cfg.ePin ≠ s.cfg.rsPin → lineLevel s.line s.cfg.ePin ≠ some true

/-- The block "never drives the read/write line to 1" (R34), on every transport (D19, D28), where that line's pin has no
other role (log 19). -/
def ReadWriteLow (s : State) : Prop :=
  ∀ p, s.cfg.rwPin = some p → p ≠ s.cfg.rsPin → p ≠ s.cfg.ePin →
    p ∉ dataPins s.cfg → .drive p true ∉ s.pins

/-- The pin trace is "the concatenation, in order, of the lowering of every transport-call event" (R10), for a
host that does not call `pulseEnable()` by itself. -/
def PinsLowerTrace (s : State) : Prop :=
  s.pins = s.trace.flatMap (lower s.cfg) ∧ .call .pulseEnable ∉ s.port

/-- Items 1 to 3 of R187 over one trace. -/
structure TraceLaws (fb : Bool) (tr : List TransportEvent) : Prop where
  /-- "Every `Write8` event in a trace comes immediately after a `SetMode` event." -/
  write8AfterSetMode : ∀ pre b post, tr = pre ++ .write8 b :: post → ∃ pre' m, pre = pre' ++ [.setMode m]
  /-- "On 4-bit wiring, every `Write8(b)` is immediately followed by `Write4(b[7:4]) Write4(b[3:0])`." -/
  write8ThenNibbles : fb = true → ∀ pre b post, tr = pre ++ .write8 b :: post →
    ∃ post', post = .write4 (BitVec.ofNat 4 (b.toNat / 16)) :: .write4 (BitVec.ofNat 4 (b.toNat % 16)) :: post'
  /-- "A `Write4` that does not follow a `Write8` in that way … comes immediately after `SetMode(Command)`": on 4-bit
  wiring it may be the first or the second nibble of a byte, on 8-bit wiring it may not. -/
  write4Placed : ∀ pre n post, tr = pre ++ .write4 n :: post →
    (fb = true ∧ ∃ pre' b, pre = pre' ++ [.write8 b]) ∨
      (fb = true ∧ ∃ pre' b h, pre = pre' ++ [.write8 b, .write4 h]) ∨
      ∃ pre', pre = pre' ++ [.setMode .command]

/-- The host issues operations of the input port alone (R11, R70), and the trace keeps the laws of R187. -/
def TraceLawful (s : State) : Prop :=
  (∀ q ∈ s.port, ∃ i, q = .op i) ∧ TraceLaws (fourbit s.cfg) s.trace

/-- What a recorded fault says of the state it left unchanged (R201 to R204, R206). -/
def FaultRecorded (s : State) : Prop :=
  match s.fault with
  | none => True
  | some (.notInitialized op) => s.init = false ∧ op.isInputOp = true
  | some .beginTwice => s.init = true
  | some (.rowOutOfTable _ row r n) =>
    s.init = true ∧ n = s.numlines ∧ r.toNat = clampedRow s.cfg.rowClamp s.numlines.toNat row.toNat ∧ 4 ≤ r.toNat

/-! ## Faults -/

/-- The state after a fault: the old state with the reason recorded, and nothing else (R206). -/
def faulted (r : FaultReason) (s : State) : State := { s with fault := some r }

/-- An operation before begin raises NotInitialized, recording itself (R202). -/
def GuardedByInit (i : Instr) : Prop :=
  ∀ s, s.fault = none → s.init = false → exec i s = .next (faulted (.notInitialized i) s)

/-! ## Two machines -/

/-- Alike in everything an observation can depend on: before begin the five registers that reset leaves
unspecified may differ (R38), after it nothing may. -/
structure Alike (s u : State) : Prop where
  cfg : u.cfg = s.cfg
  init : u.init = s.init
  fault : u.fault = s.fault
  line : u.line = s.line
  trace : u.trace = s.trace
  pins : u.pins = s.pins
  answer : u.answer = s.answer
  port : u.port = s.port
  registers : s.init = true → u = s

/-- Two outcomes are the same as far as `Alike` states go: alike next states, or the same stop. -/
def AlikeOutcome : Host.Outcome State Fault Refusal → Host.Outcome State Fault Refusal → Prop
  | .next s, .next u => Alike s u
  | .fault r, .fault r' => r = r'
  | .refused r, .refused r' => r = r'
  | _, _ => False

/-- A trace without its nibbles: the modes, the bytes and the waits (R93). -/
def withoutNibbles (evs : List TransportEvent) : List TransportEvent :=
  evs.filter fun e => match e with
    | .write4 _ => false
    | .setMode _ | .write8 _ | .delay _ => true

/-- Two blocks on which begin has run, alike but for the wiring and what hangs on it (`DF`, the pins, the model's
own `answer`), that have sent the same modes, bytes and waits since their traces were `a` and `b` (R93). -/
structure SameBytes (a b : List TransportEvent) (s u : State) : Prop where
  cfg : ∃ w, u.cfg = { s.cfg with wiring := w }
  dc : u.dc = s.dc
  dm : u.dm = s.dm
  init : s.init = true ∧ u.init = true
  curline : u.curline = s.curline
  numlines : u.numlines = s.numlines
  fault : u.fault = s.fault
  port : u.port = s.port
  sent : ∃ evs evs', s.trace = a ++ evs ∧ u.trace = b ++ evs' ∧ withoutNibbles evs = withoutNibbles evs'

/-! ## Timing -/

/-- The least duration of an operation on a direct-pin block under the default constants (R242), in
microseconds; none for an instruction the table of R242 does not list. -/
def leastDuration (fb : Bool) (k : FsRepeats) : Instr → Option Nat
  | .begin _ _ _ =>
    some (if fb then 62374 else match k with
      | .zero => 52408
      | .one => 57010
      | .three => 57364)
  | .clear => some (if fb then 2204 else 2102)
  | .createChar _ _ => some (if fb then 1836 else 918)
  | .home | .noDisplay | .display | .noCursor | .cursor | .noBlink | .blink => some (if fb then 204 else 102)
  | .scrollDisplayLeft | .scrollDisplayRight => some (if fb then 204 else 102)
  | .leftToRight | .rightToLeft | .autoscroll | .noAutoscroll => some (if fb then 204 else 102)
  | .setCursor _ _ | .write _ | .command _ => some (if fb then 204 else 102)
  | .send _ _ | .setMode _ | .write4bits _ | .write8bits _ | .fourbitmode | .pulseEnable => none
  | .cmdClear | .cmdReturnHome _ | .cmdEntryMode _ _ | .cmdDisplayControl _ _ _ | .cmdShift _ _ _ => none
  | .cmdFunctionSet _ _ _ _ | .cmdSetCgramAddr _ | .cmdSetDdramAddr _ | .dataByte _ => none

end Sys2Proof.Machine
end

