-- ==== Sys2Proof/Certificates/Slice0/Obligations.lean ====
section
/-! DEFINITION. The statements for the provers. Each docstring names the rule of spec/ it formalises. -/

open Sys2Proof Sys2Proof.Machine

/-! ## Encoding -/

/-- Decoding the request that carries an instruction gives the instruction back, for every instruction with every
operand (R70, R71, R72 to R81). -/
def Obligations.DecodeOfEncodeIsIdentity : Prop :=
  ∀ i : Instr, (encode i).decode = .ok i

/-- A transfer word has one meaning: what decodes re-encodes to the same word (R72: "A command byte's class is
given by its most significant 1 bit"; R81). -/
def Obligations.DecodedWordReencodesToItself : Prop :=
  ∀ (w : Nat) (i : Instr), (Request.word w).decode = .ok i → encode i = .word w

/-- The decoder accepts exactly the well-formed requests: the closed list of R70 on the input port, the internal
calls at the internal interface, nine-bit transfers of some class (R71, R72, R92). -/
def Obligations.DecodeAcceptsExactlyWellFormedRequests : Prop :=
  ∀ q : Request, q.wellFormed = true ↔ ∃ i, q.decode = .ok i

/-- The text of an operation reads back as the operation, with every operand at every value; the operations of the
input port are the ones that have a text (R94, R70). -/
def Obligations.AssemblyReadsBackRenderedOperation : Prop :=
  ∀ i : Instr, (render i).isSome = i.isInputOp ∧ ∀ bs, render i = some bs → assemble bs = .ok [i]

/-- `print("s")` is one write per byte of `s`, in order, and `clearNoWait` is `command(0x01)` (R94). -/
def Obligations.PseudoOperationsExpand : Prop :=
  (∀ s : List Byte, (∀ b ∈ s, b ≠ 0x22 ∧ b ≠ 0x0A) →
    assemble (namePrint ++ [ascii '(', 0x22] ++ s ++ [0x22, ascii ')']) = .ok (s.map .write)) ∧
  assemble nameClearNoWait = .ok [.command 0x01] ∧
  assemble (nameClearNoWait ++ [ascii '(', ascii ')']) = .ok [.command 0x01]

/-- Words written out from the formats of R72 and R81 decode to what they stand for; `0x00` "matches no class". -/
def Obligations.SampleWordsDecode : Prop :=
  decodeCommand 0b00000001 = .ok .cmdClear ∧
  decodeCommand 0b00000011 = .ok (.cmdReturnHome 1) ∧
  decodeCommand 0b00000110 = .ok (.cmdEntryMode true false) ∧
  decodeCommand 0b00001101 = .ok (.cmdDisplayControl true false true) ∧
  decodeCommand 0b00011100 = .ok (.cmdShift true true 0) ∧
  decodeCommand 0b00111000 = .ok (.cmdFunctionSet true true false 0) ∧
  decodeCommand 0b01011000 = .ok (.cmdSetCgramAddr 0b011000) ∧
  decodeCommand 0b11000101 = .ok (.cmdSetDdramAddr 0b1000101) ∧
  decodeTransfer .data 0b01000001 = .ok (.dataByte 0b01000001) ∧
  decodeCommand 0b00000000 = .error .noCommandClass

/-! ## Reset and step -/

/-- Reset fixes the configuration, puts INIT = 0, FAULT = none and every line at U, and emits nothing (R230, R38). -/
def Obligations.ResetLeavesBlockUninitialisedAndSilent : Prop :=
  (∀ cfg : Config,
    (State.resetWith cfg).cfg = cfg ∧ (State.resetWith cfg).init = false ∧ (State.resetWith cfg).fault = none ∧
    (∀ p, lineLevel (State.resetWith cfg).line p = none) ∧
    (State.resetWith cfg).trace = [] ∧ (State.resetWith cfg).pins = []) ∧
  State.reset = State.resetWith Config.default

/-- A step runs the decoded request: the host's list loses its head and `exec` does the rest (R11, R12). -/
def Obligations.StepRunsDecodedRequest : Prop :=
  ∀ (s : State) (q : Request) (rest : List Request) (i : Instr),
    s.fault = none → s.port = q :: rest → q.decode = .ok i →
    step s = exec i { s with port := rest }

/-- A request that is not well formed is refused by name and runs nothing (R92, R72). -/
def Obligations.StepRefusesIllFormedRequest : Prop :=
  ∀ (s : State) (q : Request) (rest : List Request),
    s.fault = none → s.port = q :: rest → q.wellFormed = false →
    ∃ e, q.decode = .error e ∧ step s = .refused (.undecodable e)

/-- "Between operations it is idle and emits nothing. The lines keep the levels last driven" (R214): with nothing to
issue, a step changes nothing. -/
def Obligations.IdleStepChangesNothing : Prop :=
  ∀ s : State, s.fault = none → s.port = [] → step s = .next s

/-! ## Internal calls -/

/-- `setMode(m)` (R110) and its lowering (R111): the event, and on a direct-pin block the register-select line at
the mode's level and the read/write line, if present, at 0; no register is written. -/
def Obligations.SetModeSelectsRegister : Prop :=
  ∀ (m : Mode) (s : State), s.fault = none →
    ∃ t, exec (.setMode m) s = .next t ∧ SameRegisters s t ∧ Emits s t [.setMode m] ∧
      (s.cfg.transport = .directPin →
        DrivesPins s t (.drive s.cfg.rsPin (decide (m = .data)) ::
          (match s.cfg.rwPin with
            | some p => [.drive p false]
            | none => [])))

/-- `write4bits(n)` (R112) and its lowering (R113): bits 7 to 4 are ignored; four data drives in ascending order,
then the pulse. On 8-bit wiring the same on the first four data pins (R120). -/
def Obligations.Write4bitsSendsLowNibble : Prop :=
  ∀ (n : Byte) (s : State), s.fault = none →
    ∃ t, exec (.write4bits n) s = .next t ∧ SameRegisters s t ∧
      Emits s t [.write4 (BitVec.ofNat 4 (n.toNat % 16))] ∧
      (s.cfg.transport = .directPin → ∀ d0 d1 d2 d3 rest, dataPins s.cfg = d0 :: d1 :: d2 :: d3 :: rest →
        DrivesPins s t
          [.drive d0 (n.getLsbD 0), .drive d1 (n.getLsbD 1), .drive d2 (n.getLsbD 2), .drive d3 (n.getLsbD 3),
           .drive s.cfg.ePin false, .wait s.cfg.timing.enPre,
           .drive s.cfg.ePin true, .wait s.cfg.timing.enWidth,
           .drive s.cfg.ePin false, .wait s.cfg.timing.enSettle])

/-- `write8bits(b)` on 8-bit wiring (R114) and its lowering (R116): bit `i` on `DATA_PINS[i]`, one pulse. -/
def Obligations.Write8bitsSendsByteOnEightWires : Prop :=
  ∀ (b : Byte) (s : State) (d0 d1 d2 d3 d4 d5 d6 d7 : PinId), s.fault = none →
    s.cfg.wiring = .eight d0 d1 d2 d3 d4 d5 d6 d7 →
    ∃ t, exec (.write8bits b) s = .next t ∧ SameRegisters s t ∧ Emits s t [.write8 b] ∧
      (s.cfg.transport = .directPin →
        DrivesPins s t
          [.drive d0 (b.getLsbD 0), .drive d1 (b.getLsbD 1), .drive d2 (b.getLsbD 2), .drive d3 (b.getLsbD 3),
           .drive d4 (b.getLsbD 4), .drive d5 (b.getLsbD 5), .drive d6 (b.getLsbD 6), .drive d7 (b.getLsbD 7),
           .drive s.cfg.ePin false, .wait s.cfg.timing.enPre,
           .drive s.cfg.ePin true, .wait s.cfg.timing.enWidth,
           .drive s.cfg.ePin false, .wait s.cfg.timing.enSettle])

/-- `write8bits(b)` on 4-bit wiring (R115): the event, then exactly the two nibbles, high first; on a direct-pin
block four data drives and a pulse for each, bits 7 to 4 first (R52, R53). -/
def Obligations.Write8bitsSplitsByteOnFourWires : Prop :=
  ∀ (b : Byte) (s : State) (d0 d1 d2 d3 : PinId), s.fault = none → s.cfg.wiring = .four d0 d1 d2 d3 →
    ∃ t, exec (.write8bits b) s = .next t ∧ SameRegisters s t ∧
      Emits s t [.write8 b, .write4 (BitVec.ofNat 4 (b.toNat / 16)), .write4 (BitVec.ofNat 4 (b.toNat % 16))] ∧
      (s.cfg.transport = .directPin →
        DrivesPins s t
          [.drive d0 (b.getLsbD 4), .drive d1 (b.getLsbD 5), .drive d2 (b.getLsbD 6), .drive d3 (b.getLsbD 7),
           .drive s.cfg.ePin false, .wait s.cfg.timing.enPre,
           .drive s.cfg.ePin true, .wait s.cfg.timing.enWidth,
           .drive s.cfg.ePin false, .wait s.cfg.timing.enSettle,
           .drive d0 (b.getLsbD 0), .drive d1 (b.getLsbD 1), .drive d2 (b.getLsbD 2), .drive d3 (b.getLsbD 3),
           .drive s.cfg.ePin false, .wait s.cfg.timing.enPre,
           .drive s.cfg.ePin true, .wait s.cfg.timing.enWidth,
           .drive s.cfg.ePin false, .wait s.cfg.timing.enSettle])

/-- `fourbitmode()` (R117): true for 4-bit wiring; nothing is emitted and no register of the spec is written. The
result is recorded in the model's own field `answer` (log 13). -/
def Obligations.FourbitmodeReportsWiring : Prop :=
  ∀ s : State, s.fault = none →
    (∀ d0 d1 d2 d3, s.cfg.wiring = .four d0 d1 d2 d3 →
      exec .fourbitmode s = .next { s with answer := some true }) ∧
    (∀ d0 d1 d2 d3 d4 d5 d6 d7, s.cfg.wiring = .eight d0 d1 d2 d3 d4 d5 d6 d7 →
      exec .fourbitmode s = .next { s with answer := some false })

/-- `pulseEnable()` (R118): no transport event; the lowering of one pulse goes to the pins, on a direct-pin block the
six pin events of R118, after which the enable line is at 0. On another transport the lowering is a free value
(log 12). -/
def Obligations.PulseEnableDrivesOnePulse : Prop :=
  ∀ s : State, s.fault = none →
    ∃ t, exec .pulseEnable s = .next t ∧ SameRegisters s t ∧ t.trace = s.trace ∧
      DrivesPins s t (lowerPulse s.cfg) ∧
      (s.cfg.transport = .directPin →
        DrivesPins s t
          [.drive s.cfg.ePin false, .wait s.cfg.timing.enPre,
           .drive s.cfg.ePin true, .wait s.cfg.timing.enWidth,
           .drive s.cfg.ePin false, .wait s.cfg.timing.enSettle] ∧
        lineLevel t.line s.cfg.ePin = some false)

/-- The lowering of a bare pulse is one pulse that keeps the properties of R121, on either transport and every
configuration. That they limit the free value of another transport, and what "stable" means in them, is the model's
choice (log 12, log 18). -/
def Obligations.BarePulseIsOnePulse : Prop :=
  ∀ cfg : Config, pulses cfg (lowerPulse cfg) = some 1

/-- `send(value, mode)` (R186): the mode, then the byte; it does not check INIT and cannot fault. -/
def Obligations.SendSelectsModeThenWritesByte : Prop :=
  ∀ (b : Byte) (m : Mode) (s : State), s.fault = none →
    ∃ t, exec (.send b m) s = .next t ∧ SameRegisters s t ∧ Emits s t (transferEvents s.cfg m b)

/-! ## Transfers -/

/-- Each command class, run as an instruction, sends its own byte as a command and writes no register: the model's
choice of meaning for these rows (log 3), with the byte formats of R73 to R80. -/
def Obligations.CommandClassesSendTheirBytes : Prop :=
  ∀ s : State, s.fault = none → ∀ (i : Instr) (b : Nat),
    (i = .cmdClear ∧ b = 1 ∨
     (∃ x, i = .cmdReturnHome x ∧ b = 2 + x.toNat) ∨
     (∃ id sh, i = .cmdEntryMode id sh ∧ b = 4 + 2 * id.toNat + sh.toNat) ∨
     (∃ d c k, i = .cmdDisplayControl d c k ∧ b = 8 + 4 * d.toNat + 2 * c.toNat + k.toNat) ∨
     (∃ sc rl x, i = .cmdShift sc rl x ∧ b = 16 + 8 * sc.toNat + 4 * rl.toNat + x.toNat) ∨
     (∃ dl n f x, i = .cmdFunctionSet dl n f x ∧ b = 32 + 16 * dl.toNat + 8 * n.toNat + 4 * f.toNat + x.toNat) ∨
     (∃ a, i = .cmdSetCgramAddr a ∧ b = 64 + a.toNat) ∨
     (∃ a, i = .cmdSetDdramAddr a ∧ b = 128 + a.toNat)) →
    ∃ t, exec i s = .next t ∧ SameRegisters s t ∧ Emits s t (transferEvents s.cfg .command (BitVec.ofNat 8 b))

/-- A data byte, run as an instruction, is sent with mode Data and unchanged: the model's choice of meaning for this
row (log 3), with R81. -/
def Obligations.DataByteIsSentUnchanged : Prop :=
  ∀ (v : Byte) (s : State), s.fault = none →
    ∃ t, exec (.dataByte v) s = .next t ∧ SameRegisters s t ∧ Emits s t (transferEvents s.cfg .data v)

/-! ## begin -/

/-- begin (R130 with its parts R131 to R137): the six registers; the power-on wait; on 4-bit wiring three bare nibbles
`0x3` with their waits and the nibble `0x2`, on 8-bit wiring the function sets of `INIT8_FS_REPEATS`; then function
set, display control, clear with its settle delay, entry mode. A second begin raises BeginTwice. -/
def Obligations.BeginInitialisesBlock : Prop :=
  ∀ (cols rows charsize : Byte) (s : State), s.fault = none →
    (s.init = true → exec (.begin cols rows charsize) s = .next (faulted .beginTwice s)) ∧
    (s.init = false →
      ∃ t, exec (.begin cols rows charsize) s = .next t ∧ SameRegisters (beginRegisters rows charsize s) t ∧
        Emits s t
          (let fs := transferEvents s.cfg .command (0x20 ||| beginFlags (fourbit s.cfg) rows charsize)
           [.delay s.cfg.timing.powerOn] ++
           (if fourbit s.cfg then
              [.setMode .command, .write4 0x3, .delay s.cfg.timing.init4First,
               .setMode .command, .write4 0x3, .delay s.cfg.timing.init4Second,
               .setMode .command, .write4 0x3, .delay s.cfg.timing.init4Third,
               .setMode .command, .write4 0x2]
            else
              match s.cfg.fsRepeats with
              | .zero => []
              | .one => fs ++ [.delay s.cfg.timing.init8First]
              | .three => fs ++ [.delay s.cfg.timing.init8First] ++ fs ++ [.delay s.cfg.timing.init8Second] ++ fs) ++
           fs ++ transferEvents s.cfg .command 0x0C ++
           transferEvents s.cfg .command 0x01 ++ [.delay s.cfg.timing.clear] ++
           transferEvents s.cfg .command 0x06))

/-- BeginTwice (R203): begin while INIT = 1 records the fault, emits nothing and writes no register. -/
def Obligations.SecondBeginFaults : Prop :=
  ∀ (cols rows charsize : Byte) (s : State), s.fault = none → s.init = true →
    exec (.begin cols rows charsize) s = .next (faulted .beginTwice s)

/-- "`cols` has no effect" (R138): no register stores it and no emitted byte depends on it. -/
def Obligations.ColumnsHaveNoEffect : Prop :=
  ∀ (c c' rows charsize : Byte) (s : State),
    exec (.begin c rows charsize) s = exec (.begin c' rows charsize) s

/-! ## Clear, home, display control, shift, entry mode -/

/-- `clear()` (R150): `0x01` as a command, then always the settle delay; no register is written. -/
def Obligations.ClearSendsCommandAndSettles : Prop :=
  GuardedByInit .clear ∧
  ∀ s, Running s → ∃ t, exec .clear s = .next t ∧ SameRegisters s t ∧
    Emits s t (transferEvents s.cfg .command 0x01 ++ [.delay s.cfg.timing.clear])

/-- `home()` (R151): `0x02` as a command, and no delay. -/
def Obligations.HomeSendsCommandAlone : Prop :=
  GuardedByInit .home ∧
  ∀ s, Running s → ∃ t, exec .home s = .next t ∧ SameRegisters s t ∧
    Emits s t (transferEvents s.cfg .command 0x02)

/-- The six display-control operations (R152 to R157): one bit of DC set or cleared, every other bit as it was, then
the whole register re-sent under `0x08` (R84). -/
def Obligations.DisplayControlWritesOneFlagAndResends : Prop :=
  ∀ i bit v, (i, bit, v) ∈
      [(Instr.noDisplay, 2, false), (.display, 2, true), (.noCursor, 1, false), (.cursor, 1, true),
       (.noBlink, 0, false), (.blink, 0, true)] →
    GuardedByInit i ∧
    ∀ s, Running s → ∃ t dc, exec i s = .next t ∧
      (∀ k, k < 8 → dc.getLsbD k = if k = bit then v else s.dc.getLsbD k) ∧
      SameRegisters { s with dc := dc } t ∧ Emits s t (transferEvents s.cfg .command (0x08 ||| dc))

/-- The display shifts (R158, R159): `0x18` and `0x1C`, and no register is written, DM in particular. -/
def Obligations.ScrollsSendOppositeShiftsAndKeepEntryMode : Prop :=
  ∀ i b, (i, b) ∈ [(Instr.scrollDisplayLeft, (0x18 : Byte)), (.scrollDisplayRight, 0x1C)] →
    GuardedByInit i ∧
    ∀ s, Running s → ∃ t, exec i s = .next t ∧ SameRegisters s t ∧ Emits s t (transferEvents s.cfg .command b)

/-- The four entry-mode operations (R160 to R163): one bit of DM set or cleared, every other bit as it was, then the
whole register re-sent under `0x04` (R85). -/
def Obligations.EntryModeWritesOneFlagAndResends : Prop :=
  ∀ i bit v, (i, bit, v) ∈
      [(Instr.leftToRight, 1, true), (.rightToLeft, 1, false), (.autoscroll, 0, true), (.noAutoscroll, 0, false)] →
    GuardedByInit i ∧
    ∀ s, Running s → ∃ t dm, exec i s = .next t ∧
      (∀ k, k < 8 → dm.getLsbD k = if k = bit then v else s.dm.getLsbD k) ∧
      SameRegisters { s with dm := dm } t ∧ Emits s t (transferEvents s.cfg .command (0x04 ||| dm))

/-- Source property E5 (42_display_control.md section 2, R152, R153): display() after noDisplay() gives back DC with
the display bit set and every other bit as before, whatever DC was. -/
def Obligations.DisplayAfterNoDisplayKeepsCursorAndBlink : Prop :=
  ∀ s, Running s → ∃ t u, exec .noDisplay s = .next t ∧ exec .display t = .next u ∧
    u.dc = s.dc ||| 0x04 ∧ SameRegisters { s with dc := u.dc } u ∧
    Emits s u (transferEvents s.cfg .command (0x08 ||| (s.dc &&& 0xFB)) ++
      transferEvents s.cfg .command (0x0C ||| s.dc))

/-! ## Addressing and data -/

/-- `createChar(index, pattern)` (R180, R87): the CGRAM address of slot `index mod 8`, then the eight pattern bytes as
data, in order and unchanged, and nothing after them. -/
def Obligations.CreateCharLoadsSlotInOrder : Prop :=
  ∀ (index : Byte) (p : Pattern), GuardedByInit (.createChar index p) ∧
    ∀ s, Running s → ∃ t, exec (.createChar index p) s = .next t ∧ SameRegisters s t ∧
      Emits s t (transferEvents s.cfg .command (BitVec.ofNat 8 (64 + 8 * (index.toNat % 8))) ++
        transferEvents s.cfg .data p.p0 ++ transferEvents s.cfg .data p.p1 ++
        transferEvents s.cfg .data p.p2 ++ transferEvents s.cfg .data p.p3 ++
        transferEvents s.cfg .data p.p4 ++ transferEvents s.cfg .data p.p5 ++
        transferEvents s.cfg .data p.p6 ++ transferEvents s.cfg .data p.p7)

/-- `setCursor(col, row)` (R181, R182, R183, R88): with `r` the clamped row, RowOutOfTable when `r` is 4 or more, else the
command `0x80 | (col + ROW_BASE[r]) mod 128`; no register is written. -/
def Obligations.SetCursorAddressesClampedRow : Prop :=
  ∀ col row : Byte, GuardedByInit (.setCursor col row) ∧
    ∀ s, Running s →
      let r := clampedRow s.cfg.rowClamp s.numlines.toNat row.toNat
      (4 ≤ r → exec (.setCursor col row) s =
        .next (faulted (.rowOutOfTable col row (BitVec.ofNat 8 r) s.numlines) s)) ∧
      ∀ base : Addr7,
        [s.cfg.rowBase.row0, s.cfg.rowBase.row1, s.cfg.rowBase.row2, s.cfg.rowBase.row3][r]? = some base →
        ∃ t, exec (.setCursor col row) s = .next t ∧ SameRegisters s t ∧
          Emits s t (transferEvents s.cfg .command (BitVec.ofNat 8 (128 + (col.toNat + base.toNat) % 128)))

/-- RowOutOfTable (R204): a clamped row of 4 or more raises the fault, which records col, row, r and NUMLINES, emits nothing
and writes no register; it is reached for every row when `NUMLINES = 0` under `GE`, and when
`NUMLINES > 4` and `4 ≤ r < NUMLINES`. -/
def Obligations.SetCursorFaultsOutsideRowTable : Prop :=
  ∀ (col row : Byte) (s : State), Running s →
    (4 ≤ clampedRow s.cfg.rowClamp s.numlines.toNat row.toNat →
      exec (.setCursor col row) s = .next (faulted (.rowOutOfTable col row
        (BitVec.ofNat 8 (clampedRow s.cfg.rowClamp s.numlines.toNat row.toNat)) s.numlines) s)) ∧
    (s.cfg.rowClamp = .ge → s.numlines = 0 →
      exec (.setCursor col row) s = .next (faulted (.rowOutOfTable col row 255 0) s)) ∧
    (4 ≤ row.toNat → row.toNat < s.numlines.toNat →
      exec (.setCursor col row) s = .next (faulted (.rowOutOfTable col row row s.numlines) s))

/-- `write(value)` (R184): the byte as data, every value unchanged; no register is written. -/
def Obligations.WriteSendsDataByte : Prop :=
  ∀ v : Byte, GuardedByInit (.write v) ∧
    ∀ s, Running s → ∃ t, exec (.write v) s = .next t ∧ SameRegisters s t ∧
      Emits s t (transferEvents s.cfg .data v)

/-- `command(value)` (R185): the byte as a command, no value refused; DF, DC and DM are not updated, and no settle
delay follows. -/
def Obligations.CommandBypassesStateTracking : Prop :=
  ∀ v : Byte, GuardedByInit (.command v) ∧
    ∀ s, Running s → ∃ t, exec (.command v) s = .next t ∧ SameRegisters s t ∧
      Emits s t (transferEvents s.cfg .command v)

/-! ## Faults -/

/-- NotInitialized (R202): every operation of R70 except begin, while INIT = 0, records itself and does nothing
else. -/
def Obligations.OperationBeforeBeginFaults : Prop :=
  ∀ (i : Instr) (s : State), s.fault = none → s.init = false → i.isInputOp = true →
    (∀ cols rows charsize, i ≠ .begin cols rows charsize) →
    exec i s = .next (faulted (.notInitialized i) s)

/-- Priority (R205): a setCursor before begin reports NotInitialized even when its row would be out of the table. -/
def Obligations.InitCheckComesBeforeRowCheck : Prop :=
  ∀ (col row : Byte) (s : State), s.fault = none → s.init = false →
    4 ≤ clampedRow s.cfg.rowClamp s.numlines.toNat row.toNat →
    exec (.setCursor col row) s = .next (faulted (.notInitialized (.setCursor col row)) s)

/-- Fault entry (R206): whatever instruction raises a fault, the state after it is the state before it with the
reason in FAULT: no event, no register. -/
def Obligations.FaultEntryIsPrecise : Prop :=
  ∀ (i : Instr) (s t : State) (r : FaultReason), exec i s = .next t → t.fault = some r → t = faulted r s

/-- The three faults and their conditions (R201): a fault that an instruction raises is one of them, raised by the
operation the table names under the condition the table gives. -/
def Obligations.FaultsHaveTheirConditions : Prop :=
  ∀ (i : Instr) (s t : State) (r : FaultReason), exec i s = .next t → t.fault = some r →
    (r = .notInitialized i ∧ i.isInputOp = true ∧ (∀ a b c, i ≠ .begin a b c) ∧ s.init = false) ∨
    (r = .beginTwice ∧ (∃ a b c, i = .begin a b c) ∧ s.init = true) ∨
    (∃ col row, i = .setCursor col row ∧ s.init = true ∧
      4 ≤ clampedRow s.cfg.rowClamp s.numlines.toNat row.toNat ∧
      r = .rowOutOfTable col row (BitVec.ofNat 8 (clampedRow s.cfg.rowClamp s.numlines.toNat row.toNat)) s.numlines)

/-- "After a fault the block has no step" (R207). That an exposed internal call or a transfer stops too is the
model's reading (log 2, DEDUCED). -/
def Obligations.NoStepAfterFault : Prop :=
  ∀ (s : State) (r : FaultReason), s.fault = some r →
    step s = .fault (.noStep r) ∧ ∀ i, exec i s = .fault (.noStep r)

/-- Every operation is legal with every operand value (R92), and no internal call can fail (R122, R186): without an
earlier fault, every instruction answers a next state. -/
def Obligations.EveryInstructionAnswersNextState : Prop :=
  ∀ (i : Instr) (s : State), s.fault = none → ∃ t, exec i s = .next t

/-! ## What a step keeps -/

/-- The configuration is "set once at construction and never changed" (R31). -/
def Obligations.StepKeepsConfiguration : Prop :=
  ∀ s t : State, step s = .next t → t.cfg = s.cfg

/-- The writers of each register (R28; R21, R23, R24, R26, R27): an instruction that changes DF, NUMLINES or CURLINE
is begin; one that changes DC is begin or a display-control operation; one that changes DM is begin or an entry-mode
operation. -/
def Obligations.OnlyListedOperationsWriteRegisters : Prop :=
  ∀ (i : Instr) (s t : State), exec i s = .next t →
    (t.df ≠ s.df ∨ t.numlines ≠ s.numlines ∨ t.curline ≠ s.curline ∨ t.init ≠ s.init → ∃ a b c, i = .begin a b c) ∧
    (t.dc ≠ s.dc → (∃ a b c, i = .begin a b c) ∨
      i ∈ [.display, .noDisplay, .cursor, .noCursor, .blink, .noBlink]) ∧
    (t.dm ≠ s.dm → (∃ a b c, i = .begin a b c) ∨
      i ∈ [.leftToRight, .rightToLeft, .autoscroll, .noAutoscroll])

/-- "begin sets it to 1 …, and nothing ever clears it again" (R25): INIT never goes from 1 to 0. -/
def Obligations.StepNeverClearsInit : Prop :=
  ∀ s t : State, step s = .next t → s.init = true → t.init = true

/-- Nothing is "reordered, merged or dropped" (R60): a step only appends to the two traces. -/
def Obligations.StepOnlyAppendsToTraces : Prop :=
  ∀ s t : State, step s = .next t → (∃ evs, t.trace = s.trace ++ evs) ∧ ∃ ps, t.pins = s.pins ++ ps

/-! ## Invariants -/

/-- The invariants below hold at reset, with every configuration. -/
def Obligations.InvariantsHoldAtReset : Prop :=
  ∀ cfg : Config, FlagsInFields (State.resetWith cfg) ∧ LinesFollowPins (State.resetWith cfg) ∧
    EnableLow (State.resetWith cfg) ∧ ReadWriteLow (State.resetWith cfg) ∧ PinsLowerTrace (State.resetWith cfg) ∧
    TraceLawful (State.resetWith cfg) ∧ FaultRecorded (State.resetWith cfg)

/-- The bits outside the fields of DF, DC and DM stay 0 once INIT = 1 (R22). -/
def Obligations.StepKeepsFlagsInFields : Prop :=
  ∀ s t : State, FlagsInFields s → step s = .next t → FlagsInFields t

/-- Every line is at the level the pin trace last drove it to (R36, R122), and the line map stays canonical. -/
def Obligations.StepKeepsLinesFollowingPins : Prop :=
  ∀ s t : State, LinesFollowPins s → step s = .next t → LinesFollowPins t

/-- The enable line rests at 0 between steps (R118, R34), where it has its pin apart from register select. -/
def Obligations.StepKeepsEnableLow : Prop :=
  ∀ s t : State, EnableLow s → step s = .next t → EnableLow t

/-- The read/write line is never driven to 1 (R34, D19, D28), on every transport, where its pin has no other role (log
19). On another transport that rests on the limit the model puts on the free lowering (log 11, log 12). -/
def Obligations.StepKeepsReadWriteLow : Prop :=
  ∀ s t : State, ReadWriteLow s → step s = .next t → ReadWriteLow t

/-- The pin trace is the lowering of the transport-call trace (R10), for a host that does not call `pulseEnable()`
by itself. -/
def Obligations.StepKeepsPinTraceLowered : Prop :=
  ∀ s t : State, PinsLowerTrace s → step s = .next t → PinsLowerTrace t

/-- The trace laws of R187, items 1 to 3, for a host that issues operations of the input port: on 8-bit wiring no
`Write4` may follow a `Write8`. -/
def Obligations.StepKeepsTraceLaws : Prop :=
  ∀ s t : State, TraceLawful s → step s = .next t → TraceLawful t

/-- What FAULT records is true of the state it stands in (R201 to R204): a step that raises a fault leaves the INIT
flag, NUMLINES and the row comparison as the fault says they were (R206). -/
def Obligations.StepKeepsFaultRecorded : Prop :=
  ∀ s t : State, FaultRecorded s → step s = .next t → FaultRecorded t

/-- R187 items 3 and 4: of the operations of the input port, only write and createChar select Data, and only begin
sends a nibble that is not part of a byte. -/
def Obligations.OnlyWriteAndCreateCharSelectData : Prop :=
  ∀ (i : Instr) (s t : State), i.isInputOp = true → exec i s = .next t →
    ∃ evs, t.trace = s.trace ++ evs ∧
      (.setMode .data ∈ evs → (∃ v, i = .write v) ∨ ∃ x p, i = .createChar x p) ∧
      ((∃ pre m n post, evs = pre ++ .setMode m :: .write4 n :: post) → ∃ a b c, i = .begin a b c)

/-! ## Comparing machines -/

/-- The registers that reset leaves unspecified cannot be observed (R38): two machines that differ only there before
begin answer alike at every step, and begin makes them equal. -/
def Obligations.UnspecifiedRegistersAreUnobservable : Prop :=
  ∀ s u : State, Alike s u → AlikeOutcome (step s) (step u)

/-- "For such a transport, … the transport-call trace is the same" (R121): the transport, the pin trace and the lines
have no part in the trace, the registers or the faults. -/
def Obligations.TransportKindDoesNotShowInTrace : Prop :=
  ∀ (i : Instr) (s t : State) (k : Transport) (ps : List PinEvent) (l : List (PinId × Bool)),
    exec i s = .next t →
    ∃ v, exec i { s with cfg := { s.cfg with transport := k }, pins := ps, line := l } = .next v ∧
      v.trace = t.trace ∧ SameRegisters { t with cfg := { s.cfg with transport := k } } v

/-- The wiring "changes the transfer …, never the byte" (R93): for every operation of the input port but begin, the
events other than `Write4`, and the registers, are the same on any other wiring. -/
def Obligations.WiringChangesTransferNotBytes : Prop :=
  ∀ (i : Instr) (s t : State) (w : Wiring), i.isInputOp = true → (∀ a b c, i ≠ .begin a b c) →
    exec i s = .next t →
    ∃ v evs evs', exec i { s with cfg := { s.cfg with wiring := w } } = .next v ∧
      t.trace = s.trace ++ evs ∧ v.trace = s.trace ++ evs' ∧
      evs.filter (fun e => match e with | .write4 _ => false | _ => true) =
        evs'.filter (fun e => match e with | .write4 _ => false | _ => true) ∧
      SameRegisters { t with cfg := { s.cfg with wiring := w } } v

/-- "It changes the transfer …, never the byte" (R93), along a run: once begin has run on both, two blocks that differ
in the wiring stop alike at every step, and otherwise go on sending the same modes, bytes and waits. -/
def Obligations.StepKeepsBytesEqualAcrossWirings : Prop :=
  ∀ (a b : List TransportEvent) (s u : State), SameBytes a b s u →
    (∀ t, step s = .next t → ∃ v, step u = .next v ∧ SameBytes a b t v) ∧
    (∀ r, step s = .fault r → step u = .fault r) ∧
    ∀ r, step s = .refused r → step u = .refused r

/-! ## Enable pulses and waits -/

/-- The direct-pin lowering meets the enable-pulse hazard by construction (R239): the register-select and data lines
are not driven while enable is high, the high phase lasts at least `T_EN_WIDTH`, and each transfer has its one pulse
(R113, R116, R118), where the enable pin is none of those lines. -/
def Obligations.DirectLoweringMeetsEnableHazard : Prop :=
  ∀ (cfg : Config) (ev : TransportEvent), cfg.ePin ≠ cfg.rsPin → cfg.ePin ∉ dataPins cfg →
    honours cfg ev (lowerDirect cfg ev) = true

/-- The lowering of a transport other than direct-pin keeps the four properties of R121, whatever it is, where the
enable pin is none of the other lines; that the four properties limit the free lowering is the model's
form of LOWER_OTHER (log 11), and what "stable" means in them is the model's choice (log 18). -/
def Obligations.OtherTransportKeepsPulseProperties : Prop :=
  ∀ (cfg : Config) (ev : TransportEvent), cfg.transport = .other →
    cfg.ePin ≠ cfg.rsPin → cfg.ePin ∉ dataPins cfg → honours cfg ev (lower cfg ev) = true

/-- The least duration of each operation (R242): the sum of its waits under the default constants on a direct-pin
block. -/
def Obligations.LeastDurationsUnderDefaultTiming : Prop :=
  ∀ (i : Instr) (s t : State) (d : Nat), s.cfg.transport = .directPin → s.cfg.timing = Config.defaultTiming →
    exec i s = .next t → t.fault = none → leastDuration (fourbit s.cfg) s.cfg.fsRepeats i = some d →
    waits t.pins = waits s.pins + d
end

