-- ==== Sys2Proof/Laws/Line.lean ====
section
/-! SUPPORT. The line map: reading after writing, and that every operation over it keeps the canonical form. -/

namespace Sys2Proof.Machine

/-- A read after a write: the level written at that pin, the old level at any other. -/
theorem lineLevel_setLine (l : List (PinId × Bool)) (p q : PinId) (v : Bool) :
    lineLevel (setLine l p v) q = if p = q then some v else lineLevel l q := by
  induction l with
  | nil => simp [setLine, lineLevel]
  | cons c rest ih =>
    obtain ⟨r, w⟩ := c
    simp only [setLine]
    split
    · simp [lineLevel]
    · split
      · subst r; simp [lineLevel]; grind
      · simp only [lineLevel, ih]; grind

theorem lineAbove_setLine (l : List (PinId × Bool)) (p : PinId) (v : Bool) (lo : Option PinId)
    (h : lineAbove lo l = true) (hp : ∀ q, lo = some q → q < p) : lineAbove lo (setLine l p v) = true := by
  induction l generalizing lo with
  | nil => cases lo <;> simp_all [setLine, lineAbove]
  | cons c rest ih =>
    obtain ⟨r, w⟩ := c
    simp only [setLine]
    split
    · cases lo <;> simp_all [lineAbove]
    · split
      · subst r; cases lo <;> simp_all [lineAbove]
      · have hr : r < p := by grind
        cases lo with
        | none => exact ih (some r) (by simpa [lineAbove] using h) (by grind)
        | some q =>
          simp only [lineAbove, Bool.and_eq_true] at h ⊢
          exact ⟨h.1, ih (some r) h.2 (by grind)⟩

/-- Writing a line keeps the canonical form. -/
theorem lineWf_setLine {l : List (PinId × Bool)} (h : lineWf l = true) (p : PinId) (v : Bool) :
    lineWf (setLine l p v) = true :=
  lineAbove_setLine l p v none h (by simp)

/-- A pin trace keeps the canonical form. -/
theorem lineWf_applyPins {l : List (PinId × Bool)} (h : lineWf l = true) (ps : List PinEvent) :
    lineWf (applyPins l ps) = true := by
  induction ps generalizing l with
  | nil => exact h
  | cons e es ih => cases e with
    | drive p v => exact ih (lineWf_setLine h p v)
    | wait t => exact ih h

/-- What a pin trace leaves on a line: the level last driven, or what was there (R36). -/
theorem lineLevel_applyPins (l : List (PinId × Bool)) (ps : List PinEvent) (p : PinId) :
    lineLevel (applyPins l ps) p = (lastLevel ps p).or (lineLevel l p) := by
  induction ps generalizing l with
  | nil => simp [applyPins, lastLevel]
  | cons e es ih => cases e with
    | drive q v =>
      show lineLevel (applyPins (setLine l q v) es) p = _
      rw [ih, lineLevel_setLine, lastLevel]
      cases lastLevel es p <;> by_cases h : q = p <;> simp [h]
    | wait t => exact ih l

theorem applyPins_append (l : List (PinId × Bool)) (ps qs : List PinEvent) :
    applyPins l (ps ++ qs) = applyPins (applyPins l ps) qs := by
  simp [applyPins]

theorem lastLevel_append (ps qs : List PinEvent) (p : PinId) :
    lastLevel (ps ++ qs) p = (lastLevel qs p).or (lastLevel ps p) := by
  induction ps with
  | nil => simp [lastLevel]
  | cons e es ih => cases e <;> simp [lastLevel, ih, Option.or_assoc]

end Sys2Proof.Machine
end

