-- ==== Sys2Proof/Laws/State.lean ====
section
/-! SUPPORT. One lemma per field per update, true by rfl, so that no later proof unfolds a record update. -/

namespace Sys2Proof.Machine

/-! ## drivePins -/

@[simp] theorem drivePins_cfg (ps : List PinEvent) (s : State) : (drivePins ps s).cfg = s.cfg := rfl
@[simp] theorem drivePins_df (ps : List PinEvent) (s : State) : (drivePins ps s).df = s.df := rfl
@[simp] theorem drivePins_dc (ps : List PinEvent) (s : State) : (drivePins ps s).dc = s.dc := rfl
@[simp] theorem drivePins_dm (ps : List PinEvent) (s : State) : (drivePins ps s).dm = s.dm := rfl
@[simp] theorem drivePins_init (ps : List PinEvent) (s : State) : (drivePins ps s).init = s.init := rfl
@[simp] theorem drivePins_curline (ps : List PinEvent) (s : State) : (drivePins ps s).curline = s.curline := rfl
@[simp] theorem drivePins_numlines (ps : List PinEvent) (s : State) : (drivePins ps s).numlines = s.numlines := rfl
@[simp] theorem drivePins_fault (ps : List PinEvent) (s : State) : (drivePins ps s).fault = s.fault := rfl
@[simp] theorem drivePins_line (ps : List PinEvent) (s : State) : (drivePins ps s).line = applyPins s.line ps := rfl
@[simp] theorem drivePins_trace (ps : List PinEvent) (s : State) : (drivePins ps s).trace = s.trace := rfl
@[simp] theorem drivePins_pins (ps : List PinEvent) (s : State) : (drivePins ps s).pins = s.pins ++ ps := rfl
@[simp] theorem drivePins_answer (ps : List PinEvent) (s : State) : (drivePins ps s).answer = s.answer := rfl
@[simp] theorem drivePins_port (ps : List PinEvent) (s : State) : (drivePins ps s).port = s.port := rfl

/-! ## emit -/

@[simp] theorem emit_cfg (ev : TransportEvent) (s : State) : (emit ev s).cfg = s.cfg := rfl
@[simp] theorem emit_df (ev : TransportEvent) (s : State) : (emit ev s).df = s.df := rfl
@[simp] theorem emit_dc (ev : TransportEvent) (s : State) : (emit ev s).dc = s.dc := rfl
@[simp] theorem emit_dm (ev : TransportEvent) (s : State) : (emit ev s).dm = s.dm := rfl
@[simp] theorem emit_init (ev : TransportEvent) (s : State) : (emit ev s).init = s.init := rfl
@[simp] theorem emit_curline (ev : TransportEvent) (s : State) : (emit ev s).curline = s.curline := rfl
@[simp] theorem emit_numlines (ev : TransportEvent) (s : State) : (emit ev s).numlines = s.numlines := rfl
@[simp] theorem emit_fault (ev : TransportEvent) (s : State) : (emit ev s).fault = s.fault := rfl
@[simp] theorem emit_line (ev : TransportEvent) (s : State) : (emit ev s).line = applyPins s.line (lower s.cfg ev) := rfl
@[simp] theorem emit_trace (ev : TransportEvent) (s : State) : (emit ev s).trace = s.trace ++ [ev] := rfl
@[simp] theorem emit_pins (ev : TransportEvent) (s : State) : (emit ev s).pins = s.pins ++ lower s.cfg ev := rfl
@[simp] theorem emit_answer (ev : TransportEvent) (s : State) : (emit ev s).answer = s.answer := rfl
@[simp] theorem emit_port (ev : TransportEvent) (s : State) : (emit ev s).port = s.port := rfl

/-! ## raise -/

@[simp] theorem raise_cfg (r : FaultReason) (s : State) : (raise r s).cfg = s.cfg := rfl
@[simp] theorem raise_df (r : FaultReason) (s : State) : (raise r s).df = s.df := rfl
@[simp] theorem raise_dc (r : FaultReason) (s : State) : (raise r s).dc = s.dc := rfl
@[simp] theorem raise_dm (r : FaultReason) (s : State) : (raise r s).dm = s.dm := rfl
@[simp] theorem raise_init (r : FaultReason) (s : State) : (raise r s).init = s.init := rfl
@[simp] theorem raise_curline (r : FaultReason) (s : State) : (raise r s).curline = s.curline := rfl
@[simp] theorem raise_numlines (r : FaultReason) (s : State) : (raise r s).numlines = s.numlines := rfl
@[simp] theorem raise_fault (r : FaultReason) (s : State) : (raise r s).fault = some r := rfl
@[simp] theorem raise_line (r : FaultReason) (s : State) : (raise r s).line = s.line := rfl
@[simp] theorem raise_trace (r : FaultReason) (s : State) : (raise r s).trace = s.trace := rfl
@[simp] theorem raise_pins (r : FaultReason) (s : State) : (raise r s).pins = s.pins := rfl
@[simp] theorem raise_answer (r : FaultReason) (s : State) : (raise r s).answer = s.answer := rfl
@[simp] theorem raise_port (r : FaultReason) (s : State) : (raise r s).port = s.port := rfl

/-! ## writeDf -/

@[simp] theorem writeDf_cfg (v : Byte) (s : State) : (writeDf v s).cfg = s.cfg := rfl
@[simp] theorem writeDf_df (v : Byte) (s : State) : (writeDf v s).df = v := rfl
@[simp] theorem writeDf_dc (v : Byte) (s : State) : (writeDf v s).dc = s.dc := rfl
@[simp] theorem writeDf_dm (v : Byte) (s : State) : (writeDf v s).dm = s.dm := rfl
@[simp] theorem writeDf_init (v : Byte) (s : State) : (writeDf v s).init = s.init := rfl
@[simp] theorem writeDf_curline (v : Byte) (s : State) : (writeDf v s).curline = s.curline := rfl
@[simp] theorem writeDf_numlines (v : Byte) (s : State) : (writeDf v s).numlines = s.numlines := rfl
@[simp] theorem writeDf_fault (v : Byte) (s : State) : (writeDf v s).fault = s.fault := rfl
@[simp] theorem writeDf_line (v : Byte) (s : State) : (writeDf v s).line = s.line := rfl
@[simp] theorem writeDf_trace (v : Byte) (s : State) : (writeDf v s).trace = s.trace := rfl
@[simp] theorem writeDf_pins (v : Byte) (s : State) : (writeDf v s).pins = s.pins := rfl
@[simp] theorem writeDf_answer (v : Byte) (s : State) : (writeDf v s).answer = s.answer := rfl
@[simp] theorem writeDf_port (v : Byte) (s : State) : (writeDf v s).port = s.port := rfl

/-! ## writeDc -/

@[simp] theorem writeDc_cfg (v : Byte) (s : State) : (writeDc v s).cfg = s.cfg := rfl
@[simp] theorem writeDc_df (v : Byte) (s : State) : (writeDc v s).df = s.df := rfl
@[simp] theorem writeDc_dc (v : Byte) (s : State) : (writeDc v s).dc = v := rfl
@[simp] theorem writeDc_dm (v : Byte) (s : State) : (writeDc v s).dm = s.dm := rfl
@[simp] theorem writeDc_init (v : Byte) (s : State) : (writeDc v s).init = s.init := rfl
@[simp] theorem writeDc_curline (v : Byte) (s : State) : (writeDc v s).curline = s.curline := rfl
@[simp] theorem writeDc_numlines (v : Byte) (s : State) : (writeDc v s).numlines = s.numlines := rfl
@[simp] theorem writeDc_fault (v : Byte) (s : State) : (writeDc v s).fault = s.fault := rfl
@[simp] theorem writeDc_line (v : Byte) (s : State) : (writeDc v s).line = s.line := rfl
@[simp] theorem writeDc_trace (v : Byte) (s : State) : (writeDc v s).trace = s.trace := rfl
@[simp] theorem writeDc_pins (v : Byte) (s : State) : (writeDc v s).pins = s.pins := rfl
@[simp] theorem writeDc_answer (v : Byte) (s : State) : (writeDc v s).answer = s.answer := rfl
@[simp] theorem writeDc_port (v : Byte) (s : State) : (writeDc v s).port = s.port := rfl

/-! ## writeDm -/

@[simp] theorem writeDm_cfg (v : Byte) (s : State) : (writeDm v s).cfg = s.cfg := rfl
@[simp] theorem writeDm_df (v : Byte) (s : State) : (writeDm v s).df = s.df := rfl
@[simp] theorem writeDm_dc (v : Byte) (s : State) : (writeDm v s).dc = s.dc := rfl
@[simp] theorem writeDm_dm (v : Byte) (s : State) : (writeDm v s).dm = v := rfl
@[simp] theorem writeDm_init (v : Byte) (s : State) : (writeDm v s).init = s.init := rfl
@[simp] theorem writeDm_curline (v : Byte) (s : State) : (writeDm v s).curline = s.curline := rfl
@[simp] theorem writeDm_numlines (v : Byte) (s : State) : (writeDm v s).numlines = s.numlines := rfl
@[simp] theorem writeDm_fault (v : Byte) (s : State) : (writeDm v s).fault = s.fault := rfl
@[simp] theorem writeDm_line (v : Byte) (s : State) : (writeDm v s).line = s.line := rfl
@[simp] theorem writeDm_trace (v : Byte) (s : State) : (writeDm v s).trace = s.trace := rfl
@[simp] theorem writeDm_pins (v : Byte) (s : State) : (writeDm v s).pins = s.pins := rfl
@[simp] theorem writeDm_answer (v : Byte) (s : State) : (writeDm v s).answer = s.answer := rfl
@[simp] theorem writeDm_port (v : Byte) (s : State) : (writeDm v s).port = s.port := rfl

/-! ## writeNumlines -/

@[simp] theorem writeNumlines_cfg (v : Byte) (s : State) : (writeNumlines v s).cfg = s.cfg := rfl
@[simp] theorem writeNumlines_df (v : Byte) (s : State) : (writeNumlines v s).df = s.df := rfl
@[simp] theorem writeNumlines_dc (v : Byte) (s : State) : (writeNumlines v s).dc = s.dc := rfl
@[simp] theorem writeNumlines_dm (v : Byte) (s : State) : (writeNumlines v s).dm = s.dm := rfl
@[simp] theorem writeNumlines_init (v : Byte) (s : State) : (writeNumlines v s).init = s.init := rfl
@[simp] theorem writeNumlines_curline (v : Byte) (s : State) : (writeNumlines v s).curline = s.curline := rfl
@[simp] theorem writeNumlines_numlines (v : Byte) (s : State) : (writeNumlines v s).numlines = v := rfl
@[simp] theorem writeNumlines_fault (v : Byte) (s : State) : (writeNumlines v s).fault = s.fault := rfl
@[simp] theorem writeNumlines_line (v : Byte) (s : State) : (writeNumlines v s).line = s.line := rfl
@[simp] theorem writeNumlines_trace (v : Byte) (s : State) : (writeNumlines v s).trace = s.trace := rfl
@[simp] theorem writeNumlines_pins (v : Byte) (s : State) : (writeNumlines v s).pins = s.pins := rfl
@[simp] theorem writeNumlines_answer (v : Byte) (s : State) : (writeNumlines v s).answer = s.answer := rfl
@[simp] theorem writeNumlines_port (v : Byte) (s : State) : (writeNumlines v s).port = s.port := rfl

/-! ## writeCurline -/

@[simp] theorem writeCurline_cfg (v : Byte) (s : State) : (writeCurline v s).cfg = s.cfg := rfl
@[simp] theorem writeCurline_df (v : Byte) (s : State) : (writeCurline v s).df = s.df := rfl
@[simp] theorem writeCurline_dc (v : Byte) (s : State) : (writeCurline v s).dc = s.dc := rfl
@[simp] theorem writeCurline_dm (v : Byte) (s : State) : (writeCurline v s).dm = s.dm := rfl
@[simp] theorem writeCurline_init (v : Byte) (s : State) : (writeCurline v s).init = s.init := rfl
@[simp] theorem writeCurline_curline (v : Byte) (s : State) : (writeCurline v s).curline = v := rfl
@[simp] theorem writeCurline_numlines (v : Byte) (s : State) : (writeCurline v s).numlines = s.numlines := rfl
@[simp] theorem writeCurline_fault (v : Byte) (s : State) : (writeCurline v s).fault = s.fault := rfl
@[simp] theorem writeCurline_line (v : Byte) (s : State) : (writeCurline v s).line = s.line := rfl
@[simp] theorem writeCurline_trace (v : Byte) (s : State) : (writeCurline v s).trace = s.trace := rfl
@[simp] theorem writeCurline_pins (v : Byte) (s : State) : (writeCurline v s).pins = s.pins := rfl
@[simp] theorem writeCurline_answer (v : Byte) (s : State) : (writeCurline v s).answer = s.answer := rfl
@[simp] theorem writeCurline_port (v : Byte) (s : State) : (writeCurline v s).port = s.port := rfl

/-! ## setInit -/

@[simp] theorem setInit_cfg (s : State) : (setInit s).cfg = s.cfg := rfl
@[simp] theorem setInit_df (s : State) : (setInit s).df = s.df := rfl
@[simp] theorem setInit_dc (s : State) : (setInit s).dc = s.dc := rfl
@[simp] theorem setInit_dm (s : State) : (setInit s).dm = s.dm := rfl
@[simp] theorem setInit_init (s : State) : (setInit s).init = true := rfl
@[simp] theorem setInit_curline (s : State) : (setInit s).curline = s.curline := rfl
@[simp] theorem setInit_numlines (s : State) : (setInit s).numlines = s.numlines := rfl
@[simp] theorem setInit_fault (s : State) : (setInit s).fault = s.fault := rfl
@[simp] theorem setInit_line (s : State) : (setInit s).line = s.line := rfl
@[simp] theorem setInit_trace (s : State) : (setInit s).trace = s.trace := rfl
@[simp] theorem setInit_pins (s : State) : (setInit s).pins = s.pins := rfl
@[simp] theorem setInit_answer (s : State) : (setInit s).answer = s.answer := rfl
@[simp] theorem setInit_port (s : State) : (setInit s).port = s.port := rfl

/-! ## writeAnswer -/

@[simp] theorem writeAnswer_cfg (v : Bool) (s : State) : (writeAnswer v s).cfg = s.cfg := rfl
@[simp] theorem writeAnswer_df (v : Bool) (s : State) : (writeAnswer v s).df = s.df := rfl
@[simp] theorem writeAnswer_dc (v : Bool) (s : State) : (writeAnswer v s).dc = s.dc := rfl
@[simp] theorem writeAnswer_dm (v : Bool) (s : State) : (writeAnswer v s).dm = s.dm := rfl
@[simp] theorem writeAnswer_init (v : Bool) (s : State) : (writeAnswer v s).init = s.init := rfl
@[simp] theorem writeAnswer_curline (v : Bool) (s : State) : (writeAnswer v s).curline = s.curline := rfl
@[simp] theorem writeAnswer_numlines (v : Bool) (s : State) : (writeAnswer v s).numlines = s.numlines := rfl
@[simp] theorem writeAnswer_fault (v : Bool) (s : State) : (writeAnswer v s).fault = s.fault := rfl
@[simp] theorem writeAnswer_line (v : Bool) (s : State) : (writeAnswer v s).line = s.line := rfl
@[simp] theorem writeAnswer_trace (v : Bool) (s : State) : (writeAnswer v s).trace = s.trace := rfl
@[simp] theorem writeAnswer_pins (v : Bool) (s : State) : (writeAnswer v s).pins = s.pins := rfl
@[simp] theorem writeAnswer_answer (v : Bool) (s : State) : (writeAnswer v s).answer = some v := rfl
@[simp] theorem writeAnswer_port (v : Bool) (s : State) : (writeAnswer v s).port = s.port := rfl

end Sys2Proof.Machine
end

