-- ==== Sys2Proof/Laws/Ops.lean ====
section
/-! SUPPORT. What each shared operation does, said once: an operation that sends adds a list of events to the
traces and changes nothing else. -/

namespace Sys2Proof.Machine

open Host (Outcome)

/-- The state after the events `evs` went out. -/
def emitAll (evs : List TransportEvent) (s : State) : State :=
  { s with
    trace := s.trace ++ evs
    pins := s.pins ++ evs.flatMap (lower s.cfg)
    line := applyPins s.line (evs.flatMap (lower s.cfg)) }

@[simp] theorem emitAll_cfg (evs : List TransportEvent) (s : State) : (emitAll evs s).cfg = s.cfg := rfl
@[simp] theorem emitAll_df (evs : List TransportEvent) (s : State) : (emitAll evs s).df = s.df := rfl
@[simp] theorem emitAll_dc (evs : List TransportEvent) (s : State) : (emitAll evs s).dc = s.dc := rfl
@[simp] theorem emitAll_dm (evs : List TransportEvent) (s : State) : (emitAll evs s).dm = s.dm := rfl
@[simp] theorem emitAll_init (evs : List TransportEvent) (s : State) : (emitAll evs s).init = s.init := rfl
@[simp] theorem emitAll_curline (evs : List TransportEvent) (s : State) : (emitAll evs s).curline = s.curline := rfl
@[simp] theorem emitAll_numlines (evs : List TransportEvent) (s : State) : (emitAll evs s).numlines = s.numlines := rfl
@[simp] theorem emitAll_fault (evs : List TransportEvent) (s : State) : (emitAll evs s).fault = s.fault := rfl
@[simp] theorem emitAll_line (evs : List TransportEvent) (s : State) : (emitAll evs s).line = applyPins s.line (evs.flatMap (lower s.cfg)) := rfl
@[simp] theorem emitAll_trace (evs : List TransportEvent) (s : State) : (emitAll evs s).trace = s.trace ++ evs := rfl
@[simp] theorem emitAll_pins (evs : List TransportEvent) (s : State) : (emitAll evs s).pins = s.pins ++ evs.flatMap (lower s.cfg) := rfl
@[simp] theorem emitAll_answer (evs : List TransportEvent) (s : State) : (emitAll evs s).answer = s.answer := rfl
@[simp] theorem emitAll_port (evs : List TransportEvent) (s : State) : (emitAll evs s).port = s.port := rfl

/-! Emitting and writing a register commute; the write stands inside. -/

@[simp] theorem writeDf_emitAll (v : Byte) (evs : List TransportEvent) (s : State) :
    writeDf v (emitAll evs s) = emitAll evs (writeDf v s) := rfl
@[simp] theorem writeDc_emitAll (v : Byte) (evs : List TransportEvent) (s : State) :
    writeDc v (emitAll evs s) = emitAll evs (writeDc v s) := rfl
@[simp] theorem writeDm_emitAll (v : Byte) (evs : List TransportEvent) (s : State) :
    writeDm v (emitAll evs s) = emitAll evs (writeDm v s) := rfl
@[simp] theorem writeNumlines_emitAll (v : Byte) (evs : List TransportEvent) (s : State) :
    writeNumlines v (emitAll evs s) = emitAll evs (writeNumlines v s) := rfl
@[simp] theorem writeCurline_emitAll (v : Byte) (evs : List TransportEvent) (s : State) :
    writeCurline v (emitAll evs s) = emitAll evs (writeCurline v s) := rfl
@[simp] theorem setInit_emitAll (evs : List TransportEvent) (s : State) :
    setInit (emitAll evs s) = emitAll evs (setInit s) := rfl
@[simp] theorem writeAnswer_emitAll (v : Bool) (evs : List TransportEvent) (s : State) :
    writeAnswer v (emitAll evs s) = emitAll evs (writeAnswer v s) := rfl

theorem emit_eq (ev : TransportEvent) (s : State) : emit ev s = emitAll [ev] s := by
  simp [emit, emitAll, drivePins]

/-- Two emissions in a row are one: nothing is reordered, merged or dropped (R60). -/
theorem emitAll_emitAll (evs evs' : List TransportEvent) (s : State) :
    emitAll evs' (emitAll evs s) = emitAll (evs ++ evs') s := by
  simp [emitAll, applyPins_append]

theorem emits_emitAll (evs : List TransportEvent) (s : State) : Emits s (emitAll evs s) evs :=
  ⟨rfl, rfl, fun p => lineLevel_applyPins s.line _ p⟩

theorem sameRegisters_emitAll (evs : List TransportEvent) (s : State) : SameRegisters s (emitAll evs s) :=
  ⟨rfl, rfl, rfl, rfl, rfl, rfl, rfl, rfl, rfl, rfl⟩

/-- The nibbles of R52 as numbers. -/
theorem highNibble_eq (b : Byte) : highNibble b = BitVec.ofNat 4 (b.toNat / 16) := by
  apply BitVec.eq_of_toNat_eq
  simp [highNibble, Nat.shiftRight_eq_div_pow]

theorem lowNibble_eq (b : Byte) : lowNibble b = BitVec.ofNat 4 (b.toNat % 16) := by
  apply BitVec.eq_of_toNat_eq
  simp [lowNibble]

theorem lowNibble_zeroExtend (n : Nibble) : lowNibble (n.zeroExtend 8) = n := by
  revert n; decide

theorem write4bits_eq (n : Byte) (s : State) : write4bits n s = emitAll [.write4 (lowNibble n)] s := emit_eq _ s

theorem setMode_eq (m : Mode) (s : State) : setMode m s = emitAll [.setMode m] s := emit_eq _ s

theorem delay_eq (t : Nat) (s : State) : delay t s = emitAll [.delay t] s := emit_eq _ s

/-- Everything a transfer does (R186). -/
theorem send_eq (b : Byte) (m : Mode) (s : State) : send b m s = emitAll (transferEvents s.cfg m b) s := by
  simp only [send, write8bits, setMode_eq, write4bits_eq, emit_eq, lowNibble_zeroExtend, emitAll_cfg,
    emitAll_emitAll, transferEvents, ← highNibble_eq, ← lowNibble_eq]
  split <;> rfl

/-- Everything a run of data bytes does (R180). -/
theorem sendData_eq (bs : List Byte) (s : State) :
    bs.foldl (fun s b => send b .data s) s = emitAll (bs.flatMap (transferEvents s.cfg .data)) s := by
  induction bs generalizing s with
  | nil => simp [emitAll, applyPins]
  | cons b bs ih => rw [List.foldl_cons, ih, send_eq, emitAll_emitAll, emitAll_cfg, List.flatMap_cons]

theorem drive_mem_driveData {v : Byte} {k : Nat} {ps : List PinId} {p : PinId} {x : Bool}
    (h : .drive p x ∈ driveData v k ps) : p ∈ ps := by
  induction ps generalizing k with
  | nil => simp [driveData] at h
  | cons q qs ih =>
    simp only [driveData, List.mem_cons, PinEvent.drive.injEq] at h
    rcases h with ⟨rfl, _⟩ | h
    · exact List.mem_cons_self
    · exact List.mem_cons_of_mem _ (ih h)

theorem drivesReadWriteHigh_eq_false {cfg : Config} {ps : List PinEvent} :
    drivesReadWriteHigh cfg ps = false ↔ ∀ p, cfg.rwPin = some p → p ≠ cfg.rsPin → p ≠ cfg.ePin →
      p ∉ dataPins cfg → .drive p true ∉ ps := by
  unfold drivesReadWriteHigh
  split <;> simp_all

theorem drivesReadWriteHigh_directPulse (cfg : Config) : drivesReadWriteHigh cfg (directPulse cfg) = false := by
  rw [drivesReadWriteHigh_eq_false]
  intro p _ _ he _
  simp [directPulse, he]

/-- The direct-pin lowering never drives the read/write line to 1 (R34, R111, R113, R116, R118). -/
theorem drivesReadWriteHigh_lowerDirect (cfg : Config) (ev : TransportEvent) :
    drivesReadWriteHigh cfg (lowerDirect cfg ev) = false := by
  rw [drivesReadWriteHigh_eq_false]
  intro p hp hr he hd
  have hpulse := drivesReadWriteHigh_eq_false.1 (drivesReadWriteHigh_directPulse cfg) p hp hr he hd
  cases ev with
  | setMode m => simp [lowerDirect, driveReadWrite, hp, hr]
  | write4 n =>
    simp only [lowerDirect, List.mem_append, not_or]
    exact ⟨fun h => hd (List.mem_of_mem_take (drive_mem_driveData h)), hpulse⟩
  | write8 b =>
    rw [lowerDirect]
    split
    · exact List.not_mem_nil
    · simp only [List.mem_append, not_or]
      exact ⟨fun h => hd (drive_mem_driveData h), hpulse⟩
  | delay t => simp [lowerDirect]

/-- The direct-pin lowering is within the limits on every configuration, so it may stand in for the free one. -/
theorem withinLimits_lowerDirect (cfg : Config) (ev : TransportEvent) :
    withinLimits cfg ev (lowerDirect cfg ev) = true := by
  simp [withinLimits, drivesReadWriteHigh_lowerDirect]

/-- What is known of the lowering of another transport: it is within the limits (R34, R121). -/
theorem withinLimits_lowerOther (cfg : Config) (ev : TransportEvent) :
    withinLimits cfg ev (lowerOther cfg ev) = true := by
  unfold lowerOther
  split
  · assumption
  · exact withinLimits_lowerDirect cfg ev

/-- The bare pulse (R118). -/
theorem drivesPins_drivePins (ps : List PinEvent) (s : State) : DrivesPins s (drivePins ps s) ps :=
  ⟨rfl, fun p => lineLevel_applyPins s.line ps p⟩

/-- What `accept` can do (R207). -/
theorem accept_eq (s : State) (k : Outcome State Fault Refusal) :
    (∃ r, s.fault = some r ∧ accept s k = .fault (.noStep r)) ∨ (s.fault = none ∧ accept s k = k) := by
  cases h : s.fault <;> simp [accept, h]

theorem accept_of_none {s : State} (h : s.fault = none) (k : Outcome State Fault Refusal) : accept s k = k := by
  simp [accept, h]

theorem accept_of_some {s : State} {r : FaultReason} (h : s.fault = some r) (k : Outcome State Fault Refusal) :
    accept s k = .fault (.noStep r) := by
  simp [accept, h]

/-- What a guarded operation can answer with: an inversion of `require_init()` (R202, R206). -/
theorem requireInit_cases {op : Instr} {s t : State} {k : State → State} (h : requireInit op s k = .next t) :
    s.fault = none ∧ ((s.init = true ∧ t = k s) ∨ (s.init = false ∧ t = raise (.notInitialized op) s)) := by
  obtain ⟨r, hr, he⟩ | ⟨hf, he⟩ := accept_eq s (.next (if s.init then k s else raise (.notInitialized op) s))
  · rw [requireInit, he] at h; cases h
  · rw [requireInit, he] at h
    refine ⟨hf, ?_⟩
    cases hi : s.init <;> simp [hi] at h <;> simp [h]

theorem requireInit_running {op : Instr} {s : State} {k : State → State} (hf : s.fault = none) (hi : s.init = true) :
    requireInit op s k = .next (k s) := by
  simp [requireInit, accept, hf, hi]

theorem requireInit_before {op : Instr} {s : State} {k : State → State} (hf : s.fault = none) (hi : s.init = false) :
    requireInit op s k = .next (raise (.notInitialized op) s) := by
  simp [requireInit, accept, hf, hi]

end Sys2Proof.Machine
end

