-- ==== Sys2Proof/Laws/Exec.lean ====
section
/-! SUPPORT. What `exec` can do, said once: raise a fault, or write registers and emit a list of events. -/

namespace Sys2Proof.Machine

open Host (Outcome)

/-- The fault an instruction raises on a state without one (R201 to R205). -/
def raises (i : Instr) (s : State) : Option FaultReason :=
  match i with
  | .begin _ _ _ => if s.init then some .beginTwice else none
  | .setCursor col row =>
    if s.init then
      match rowBaseAt s.cfg.rowBase (clampRow s.cfg.rowClamp s.numlines row) with
      | some _ => none
      | none => some (.rowOutOfTable col row (clampRow s.cfg.rowClamp s.numlines row) s.numlines)
    else some (.notInitialized (.setCursor col row))
  | i => if i.isInputOp && !s.init then some (.notInitialized i) else none

/-- begin's events after the power-on wait and before the final function set (R134, R135). -/
def initEvents (cfg : Config) (fs : List TransportEvent) : List TransportEvent :=
  if fourbit cfg then
    [.setMode .command, .write4 0x3, .delay cfg.timing.init4First,
     .setMode .command, .write4 0x3, .delay cfg.timing.init4Second,
     .setMode .command, .write4 0x3, .delay cfg.timing.init4Third,
     .setMode .command, .write4 0x2]
  else
    match cfg.fsRepeats with
    | .zero => []
    | .one => fs ++ [.delay cfg.timing.init8First]
    | .three => fs ++ [.delay cfg.timing.init8First] ++ fs ++ [.delay cfg.timing.init8Second] ++ fs

/-- begin's events when it raises nothing (R130). -/
def beginEvents (rows charsize : Byte) (s : State) : List TransportEvent :=
  let c := transferEvents s.cfg .command
  let fs := c (functionSetByte (functionFlags (fourbit s.cfg) rows charsize))
  [.delay s.cfg.timing.powerOn] ++ initEvents s.cfg fs ++
    (fs ++ c 0x0C ++ (c 0x01 ++ [.delay s.cfg.timing.clear]) ++ c 0x06)

/-- The registers of begin when it raises nothing (R130). -/
def beginWrites (rows charsize : Byte) (s : State) : State :=
  setInit (writeDm 0x02 (writeDc 0x04 (writeCurline 0 (writeNumlines rows
    (writeDf (functionFlags (fourbit s.cfg) rows charsize) s)))))

/-- The registers an instruction leaves when it raises nothing (R28). -/
def registers (i : Instr) (s : State) : State :=
  match i with
  | .begin _ rows charsize => beginWrites rows charsize s
  | .noDisplay => writeDc (clearFlag s.dc displayOn) s
  | .display => writeDc (setFlag s.dc displayOn) s
  | .noCursor => writeDc (clearFlag s.dc cursorOn) s
  | .cursor => writeDc (setFlag s.dc cursorOn) s
  | .noBlink => writeDc (clearFlag s.dc blinkOn) s
  | .blink => writeDc (setFlag s.dc blinkOn) s
  | .leftToRight => writeDm (setFlag s.dm entryLeft) s
  | .rightToLeft => writeDm (clearFlag s.dm entryLeft) s
  | .autoscroll => writeDm (setFlag s.dm entryShiftIncrement) s
  | .noAutoscroll => writeDm (clearFlag s.dm entryShiftIncrement) s
  | .fourbitmode => writeAnswer (fourbit s.cfg) s
  | _ => s

/-- The events an instruction emits when it raises nothing (R90). -/
def events (i : Instr) (s : State) : List TransportEvent :=
  let c := transferEvents s.cfg .command
  match i with
  | .begin _ rows charsize => beginEvents rows charsize s
  | .clear => c 0x01 ++ [.delay s.cfg.timing.clear]
  | .home => c 0x02
  | .noDisplay | .display | .noCursor | .cursor | .noBlink | .blink => c (controlByte (registers i s).dc)
  | .scrollDisplayLeft => c 0x18
  | .scrollDisplayRight => c 0x1C
  | .leftToRight | .rightToLeft | .autoscroll | .noAutoscroll => c (entryByte (registers i s).dm)
  | .createChar index pattern => c (glyphByte index) ++ (patternBytes pattern).flatMap (transferEvents s.cfg .data)
  | .setCursor col row =>
    match rowBaseAt s.cfg.rowBase (clampRow s.cfg.rowClamp s.numlines row) with
    | some base => c (setDdramByte (ddramAddress col base))
    | none => []
  | .write v => transferEvents s.cfg .data v
  | .command v => c v
  | .send v m => transferEvents s.cfg m v
  | .setMode m => [.setMode m]
  | .write4bits n => [.write4 (lowNibble n)]
  | .write8bits b => (transferEvents s.cfg .command b).tail
  | .fourbitmode => []
  | .pulseEnable => []
  | .cmdClear => c clearByte
  | .cmdReturnHome x => c (returnHomeByte x)
  | .cmdEntryMode id sh => c (entryModeByte id sh)
  | .cmdDisplayControl d k b => c (displayControlByte d k b)
  | .cmdShift sc rl x => c (shiftByte sc rl x)
  | .cmdFunctionSet dl n f x => c (functionSetClassByte dl n f x)
  | .cmdSetCgramAddr a => c (setCgramByte a)
  | .cmdSetDdramAddr a => c (setDdramByte a)
  | .dataByte v => transferEvents s.cfg .data v

/-- The state an instruction leaves on a state without a fault. -/
def result (i : Instr) (s : State) : State :=
  match raises i s with
  | some r => raise r s
  | none => if i = .pulseEnable then pulseEnable s else emitAll (events i s) (registers i s)

theorem emitAll_nil (s : State) : emitAll [] s = s := by
  simp [emitAll, applyPins]

theorem write8bits_eq (b : Byte) (s : State) :
    write8bits b s = emitAll (transferEvents s.cfg .command b).tail s := by
  simp only [write8bits, write4bits_eq, emit_eq, lowNibble_zeroExtend, emitAll_emitAll, transferEvents,
    ← highNibble_eq, ← lowNibble_eq, List.tail_cons]
  split <;> rfl

theorem init4bit_eq (s : State) (h : fourbit s.cfg = true) (fs : List TransportEvent) :
    init4bit s = emitAll (initEvents s.cfg fs) s := by
  have h3 : lowNibble 0x3 = 0x3 := by decide
  have h2 : lowNibble 0x2 = 0x2 := by decide
  simp only [init4bit, initNibble, delay_eq, write4bits_eq, setMode_eq, emitAll_emitAll, initEvents, h, if_true, h3, h2]
  rfl

theorem init8bit_eq (s : State) (h : fourbit s.cfg = false) :
    init8bit s = emitAll (initEvents s.cfg (transferEvents s.cfg .command (functionSetByte s.df))) s := by
  simp only [init8bit, initEvents, h]
  cases s.cfg.fsRepeats <;>
    simp [delay_eq, send_eq, emitAll_emitAll, emitAll_nil]

theorem baseline_eq (s : State) :
    baseline s = emitAll (transferEvents s.cfg .command (functionSetByte s.df) ++ transferEvents s.cfg .command 0x0C ++
      (transferEvents s.cfg .command 0x01 ++ [.delay s.cfg.timing.clear]) ++ transferEvents s.cfg .command 0x06)
      (writeDm 0x02 (writeDc 0x04 s)) := by
  have h1 : controlByte 0x04 = 0x0C := by decide
  have h2 : entryByte 0x02 = 0x06 := by decide
  have h3 : baselineControl = 0x04 := by decide
  have h4 : baselineEntry = 0x02 := by decide
  have h5 : clearBase = 0x01 := rfl
  simp only [baseline, h3, h4, h5, writeDc_dc, writeDm_dm, h1, h2, delay_eq, send_eq, writeDc_emitAll, writeDm_emitAll,
    emitAll_cfg, emitAll_dc, emitAll_dm, writeDc_cfg, writeDm_cfg, emitAll_emitAll, List.append_assoc]

theorem beginBody_eq (rows charsize : Byte) (s : State) :
    beginBody rows charsize s = emitAll (beginEvents rows charsize s) (beginWrites rows charsize s) := by
  have key : ∀ u : State, u.cfg = s.cfg → u.df = functionFlags (fourbit s.cfg) rows charsize →
      (if fourbit u.cfg then init4bit u else init8bit u) = emitAll (initEvents s.cfg
        (transferEvents s.cfg .command (functionSetByte (functionFlags (fourbit s.cfg) rows charsize)))) u := by
    intro u hc hd
    split
    · rename_i h; rw [init4bit_eq u h, hc]
    · rename_i h; rw [init8bit_eq u (by simpa using h), hc, hd]
  simp only [beginBody, fourbitmode, delay_eq]
  rw [key (emitAll _ (initRegisters rows charsize s)) rfl rfl, baseline_eq]
  simp only [emitAll_emitAll, emitAll_cfg, emitAll_df, writeDc_emitAll, writeDm_emitAll, setInit_emitAll, initRegisters,
    writeCurline_cfg, writeNumlines_cfg, writeDf_cfg, writeCurline_df, writeNumlines_df, writeDf_df, fourbitmode]
  rfl

theorem requireInit_result {i : Instr} {s : State} {k : State → State} (h : s.fault = none)
    (hr : raises i s = if i.isInputOp && !s.init then some (.notInitialized i) else none) (hi : i.isInputOp = true)
    (hp : i ≠ .pulseEnable) (hk : k s = emitAll (events i s) (registers i s)) :
    requireInit i s k = .next (result i s) := by
  rw [requireInit, accept_of_none h, result, hr, hi, hk]
  cases s.init <;> simp [hp]

theorem accept_result {i : Instr} {s u : State} (h : s.fault = none) (hr : raises i s = none)
    (hp : i ≠ .pulseEnable) (hk : u = emitAll (events i s) (registers i s)) :
    accept s (.next u) = .next (result i s) := by
  rw [accept_of_none h, result, hr, hk, if_neg hp]

theorem raises_begin (cols rows charsize : Byte) (s : State) :
    raises (.begin cols rows charsize) s = if s.init then some .beginTwice else none := rfl

theorem raises_setCursor (col row : Byte) (s : State) :
    raises (.setCursor col row) s =
      if s.init then
        match rowBaseAt s.cfg.rowBase (clampRow s.cfg.rowClamp s.numlines row) with
        | some _ => none
        | none => some (.rowOutOfTable col row (clampRow s.cfg.rowClamp s.numlines row) s.numlines)
      else some (.notInitialized (.setCursor col row)) := rfl

theorem events_setCursor (col row : Byte) (s : State) :
    events (.setCursor col row) s =
      match rowBaseAt s.cfg.rowBase (clampRow s.cfg.rowClamp s.numlines row) with
      | some base => transferEvents s.cfg .command (setDdramByte (ddramAddress col base))
      | none => [] := rfl

/-- The last step of setCursor, when INIT = 1 (R181, R204). -/
theorem moveCursor_result (col row : Byte) (s : State) (hi : s.init = true) :
    moveCursor col row s = result (.setCursor col row) s := by
  cases hb : rowBaseAt s.cfg.rowBase (clampRow s.cfg.rowClamp s.numlines row) with
  | some base =>
    have h1 : raises (.setCursor col row) s = none := by rw [raises_setCursor, hi, hb]; rfl
    have h2 : events (.setCursor col row) s = transferEvents s.cfg .command (setDdramByte (ddramAddress col base)) := by
      rw [events_setCursor, hb]
    rw [result, h1, h2]
    simp only [moveCursor, hb, send_eq]
    rfl
  | none =>
    have h1 : raises (.setCursor col row) s =
        some (.rowOutOfTable col row (clampRow s.cfg.rowClamp s.numlines row) s.numlines) := by rw [raises_setCursor, hi, hb]; rfl
    rw [result, h1]
    simp only [moveCursor, hb]

/-- Everything an instruction can do on a state without a fault. -/
theorem exec_eq (i : Instr) (s : State) (h : s.fault = none) : exec i s = .next (result i s) := by
  cases i
  case begin cols rows charsize =>
    show accept s _ = _
    rw [accept_of_none h, beginBody_eq]
    cases hi : s.init
    · have h1 : raises (.begin cols rows charsize) s = none := by rw [raises_begin, hi]; rfl
      rw [result, h1]; rfl
    · have h1 : raises (.begin cols rows charsize) s = some .beginTwice := by rw [raises_begin, hi]; rfl
      rw [result, h1]; rfl
  case setCursor col row =>
    show accept s _ = _
    rw [accept_of_none h]
    cases hi : s.init
    · have h1 : raises (.setCursor col row) s = some (.notInitialized (.setCursor col row)) := by rw [raises_setCursor, hi]; rfl
      rw [result, h1]; rfl
    · rw [if_pos rfl, moveCursor_result col row s hi]
  case pulseEnable =>
    show accept s _ = _
    rw [accept_of_none h]
    rfl
  case createChar index pattern =>
    show execCreateChar index pattern s = _
    unfold execCreateChar
    refine requireInit_result (i := .createChar index pattern) h rfl rfl (by simp) ?_
    rw [sendData, sendData_eq, send_eq, emitAll_emitAll]
    rfl
  case fourbitmode => exact accept_result h rfl (by simp) (emitAll_nil _).symm
  case setMode m => exact accept_result (i := .setMode m) h rfl (by simp) (setMode_eq m s)
  case write4bits n => exact accept_result (i := .write4bits n) h rfl (by simp) (write4bits_eq n s)
  case write8bits b => exact accept_result (i := .write8bits b) h rfl (by simp) (write8bits_eq b s)
  case clear =>
    show execClear s = _
    unfold execClear
    refine requireInit_result (i := .clear) h rfl rfl (by simp) ?_
    rw [delay_eq, send_eq, emitAll_emitAll]
    rfl
  case home => exact requireInit_result (i := .home) h rfl rfl (by simp) (send_eq _ _ s)
  case scrollDisplayLeft => exact requireInit_result (i := .scrollDisplayLeft) h rfl rfl (by simp) (send_eq _ _ s)
  case scrollDisplayRight => exact requireInit_result (i := .scrollDisplayRight) h rfl rfl (by simp) (send_eq _ _ s)
  case write v => exact requireInit_result (i := .write v) h rfl rfl (by simp) (send_eq _ _ s)
  case command v => exact requireInit_result (i := .command v) h rfl rfl (by simp) (send_eq _ _ s)
  case noDisplay => exact requireInit_result (i := .noDisplay) h rfl rfl (by simp) (send_eq _ _ _)
  case display => exact requireInit_result (i := .display) h rfl rfl (by simp) (send_eq _ _ _)
  case noCursor => exact requireInit_result (i := .noCursor) h rfl rfl (by simp) (send_eq _ _ _)
  case cursor => exact requireInit_result (i := .cursor) h rfl rfl (by simp) (send_eq _ _ _)
  case noBlink => exact requireInit_result (i := .noBlink) h rfl rfl (by simp) (send_eq _ _ _)
  case blink => exact requireInit_result (i := .blink) h rfl rfl (by simp) (send_eq _ _ _)
  case leftToRight => exact requireInit_result (i := .leftToRight) h rfl rfl (by simp) (send_eq _ _ _)
  case rightToLeft => exact requireInit_result (i := .rightToLeft) h rfl rfl (by simp) (send_eq _ _ _)
  case autoscroll => exact requireInit_result (i := .autoscroll) h rfl rfl (by simp) (send_eq _ _ _)
  case noAutoscroll => exact requireInit_result (i := .noAutoscroll) h rfl rfl (by simp) (send_eq _ _ _)
  case send v m => exact accept_result (i := .send v m) h rfl (by simp) (send_eq _ _ s)
  case cmdClear => exact accept_result (i := .cmdClear) h rfl (by simp) (send_eq _ _ s)
  case cmdReturnHome x => exact accept_result (i := .cmdReturnHome x) h rfl (by simp) (send_eq _ _ s)
  case cmdEntryMode id sh => exact accept_result (i := .cmdEntryMode id sh) h rfl (by simp) (send_eq _ _ s)
  case cmdDisplayControl d c b => exact accept_result (i := .cmdDisplayControl d c b) h rfl (by simp) (send_eq _ _ s)
  case cmdShift sc rl x => exact accept_result (i := .cmdShift sc rl x) h rfl (by simp) (send_eq _ _ s)
  case cmdFunctionSet dl n f x => exact accept_result (i := .cmdFunctionSet dl n f x) h rfl (by simp) (send_eq _ _ s)
  case cmdSetCgramAddr a => exact accept_result (i := .cmdSetCgramAddr a) h rfl (by simp) (send_eq _ _ s)
  case cmdSetDdramAddr a => exact accept_result (i := .cmdSetDdramAddr a) h rfl (by simp) (send_eq _ _ s)
  case dataByte v => exact accept_result (i := .dataByte v) h rfl (by simp) (send_eq _ _ s)

/-- No instruction has a next state after a fault (R207). -/
theorem exec_of_fault (i : Instr) (s : State) (r : FaultReason) (h : s.fault = some r) :
    exec i s = .fault (.noStep r) := by
  cases i <;> exact accept_of_some h _

/-- The inversion of `exec`: a next state comes from a state without a fault, and is `result`. -/
theorem exec_next {i : Instr} {s t : State} (h : exec i s = .next t) : s.fault = none ∧ t = result i s := by
  cases hf : s.fault with
  | some r => rw [exec_of_fault i s r hf] at h; cases h
  | none => rw [exec_eq i s hf] at h; cases h; exact ⟨rfl, rfl⟩

/-- The inversion of `step`: it is idle, or it runs the instruction of the first request on the state without that
request. -/
theorem step_next {s t : State} (h : step s = .next t) :
    s.fault = none ∧ ((s.port = [] ∧ t = s) ∨
      ∃ q rest i, s.port = q :: rest ∧ q.decode = .ok i ∧ t = result i { s with port := rest }) := by
  unfold step takeRequest at h
  cases hf : s.fault with
  | some r => simp [hf] at h
  | none =>
    refine ⟨rfl, ?_⟩
    cases hp : s.port with
    | nil => simp [hf, hp] at h; exact .inl ⟨rfl, h.symm⟩
    | cons q rest =>
      simp only [hf, hp] at h
      cases hq : q.decode with
      | error e => simp [hq] at h
      | ok i =>
        simp only [hq] at h
        exact .inr ⟨q, rest, i, rfl, hq, (exec_next h).2⟩

end Sys2Proof.Machine
end

