-- ==== Sys2Proof/Laws/PerInstr.lean ====
section
/-! SUPPORT. The family Encoding: the request that carries an instruction arrives on an interface that takes it
(R70, R71, R92). -/

namespace Sys2Proof.Laws.Encoding

/-- The request `encode i` is well formed: an operation on the input port, an internal call at the internal
interface, a transfer as a nine-bit word of some class. -/
def Statement (i : Instr) : Prop := (encode i).wellFormed = true

theorem begin (cols rows charsize : Byte) : Statement (.begin cols rows charsize) := rfl
theorem clear : Statement .clear := rfl
theorem home : Statement .home := rfl
theorem noDisplay : Statement .noDisplay := rfl
theorem display : Statement .display := rfl
theorem noCursor : Statement .noCursor := rfl
theorem cursor : Statement .cursor := rfl
theorem noBlink : Statement .noBlink := rfl
theorem blink : Statement .blink := rfl
theorem scrollDisplayLeft : Statement .scrollDisplayLeft := rfl
theorem scrollDisplayRight : Statement .scrollDisplayRight := rfl
theorem leftToRight : Statement .leftToRight := rfl
theorem rightToLeft : Statement .rightToLeft := rfl
theorem autoscroll : Statement .autoscroll := rfl
theorem noAutoscroll : Statement .noAutoscroll := rfl
theorem createChar (index : Byte) (pattern : Pattern) : Statement (.createChar index pattern) := rfl
theorem setCursor (col row : Byte) : Statement (.setCursor col row) := rfl
theorem write (value : Byte) : Statement (.write value) := rfl
theorem command (value : Byte) : Statement (.command value) := rfl
theorem send (value : Byte) (mode : Mode) : Statement (.send value mode) := rfl
theorem setMode (m : Mode) : Statement (.setMode m) := rfl
theorem write4bits (n : Byte) : Statement (.write4bits n) := rfl
theorem write8bits (b : Byte) : Statement (.write8bits b) := rfl
theorem fourbitmode : Statement .fourbitmode := rfl
theorem pulseEnable : Statement .pulseEnable := rfl
theorem cmdClear : Statement .cmdClear := by unfold Statement; decide
theorem cmdReturnHome (x : BitVec 1) : Statement (.cmdReturnHome x) := by unfold Statement; revert x; decide
theorem cmdEntryMode (id s : Bool) : Statement (.cmdEntryMode id s) := by unfold Statement; revert id s; decide
theorem cmdDisplayControl (d c b : Bool) : Statement (.cmdDisplayControl d c b) := by unfold Statement; revert d c b; decide
theorem cmdShift (sc rl : Bool) (x : BitVec 2) : Statement (.cmdShift sc rl x) := by unfold Statement; revert sc rl x; decide
theorem cmdFunctionSet (dl n f : Bool) (x : BitVec 2) : Statement (.cmdFunctionSet dl n f x) := by unfold Statement; revert dl n f x; decide
theorem cmdSetCgramAddr (a : Addr6) : Statement (.cmdSetCgramAddr a) := by unfold Statement; revert a; decide
theorem cmdSetDdramAddr (a : Addr7) : Statement (.cmdSetDdramAddr a) := by unfold Statement; revert a; decide
theorem dataByte (v : Byte) : Statement (.dataByte v) := by unfold Statement; revert v; decide

end Sys2Proof.Laws.Encoding
end

