-- ==== Sys2Proof/Tests/Slice0.lean ====
section
/-! SUPPORT. Tests: ill-formed terms refused, words written out from the spec's formats, the vectors of
95_test_vectors.md (each test names its vector), and a witness for the hypotheses of each statement. -/

namespace Sys2Proof.Tests

open Sys2Proof.Machine

/-! ## Small states -/

/-- 8-bit wiring after `begin(16, 2, 0)`, with the traces left empty. -/
def up8 : State := { State.reset with init := true, df := 0x18, dc := 0x04, dm := 0x02, numlines := 2 }

/-- 4-bit wiring, pins 5, 4, 3, 2 (95_test_vectors.md section 2.1). -/
def four : Config := Config.ofWiring (.four 5 4 3 2)

/-- 4-bit wiring after begin, with the traces left empty. -/
def up4 : State := { State.resetWith four with init := true, df := 0x08, dc := 0x04, dm := 0x02, numlines := 2 }

/-- A block on another transport. -/
def upOther : State := { up8 with cfg := { up8.cfg with transport := .other } }

abbrev Out := Host.Outcome State Fault Refusal

def traceOf : Out → Option (List TransportEvent)
  | .next t => some t.trace
  | .fault _ | .refused _ => none

def pinsOf : Out → Option (List PinEvent)
  | .next t => some t.pins
  | .fault _ | .refused _ => none

def faultOf : Out → Option (Option FaultReason)
  | .next t => some t.fault
  | .fault _ | .refused _ => none

def dcOf : Out → Option Byte
  | .next t => some t.dc
  | .fault _ | .refused _ => none

def dmOf : Out → Option Byte
  | .next t => some t.dm
  | .fault _ | .refused _ => none

/-- `C:xx` of 95_test_vectors.md on 8-bit wiring. -/
def cmd (b : Byte) : List TransportEvent := [.setMode .command, .write8 b]

/-- `D:xx` of 95_test_vectors.md on 8-bit wiring. -/
def dat (b : Byte) : List TransportEvent := [.setMode .data, .write8 b]

/-- `P` of 95_test_vectors.md section 2.1. -/
def pulse : List PinEvent := [.drive 11 false, .wait 1, .drive 11 true, .wait 1, .drive 11 false, .wait 100]

/-! ## WellFormed: an ill-formed term for each check -/

theorem test_illformed_internal_on_port : (Request.op (.send 0x41 .data)).wellFormed = false := by decide
theorem test_illformed_word_row_on_port : (Request.op .cmdClear).wellFormed = false := by decide
theorem test_illformed_operation_as_call : (Request.call .clear).wellFormed = false := by decide
theorem test_illformed_word_as_call : (Request.call (.dataByte 0x41)).wellFormed = false := by decide
theorem test_illformed_word_of_no_class : (Request.word 0x00).wellFormed = false := by decide
theorem test_illformed_word_too_wide : (Request.word 512).wellFormed = false := by decide
theorem test_wellformed_requests :
    (Request.op (.setCursor 0 9)).wellFormed = true ∧ (Request.call .pulseEnable).wellFormed = true ∧
    (Request.word 0x100).wellFormed = true := by decide

/-! ## Decode: words written bit by bit from R72 and R81 -/

theorem test_decode_clear : decodeWord 0b000000001 = .ok .cmdClear := by decide
theorem test_decode_return_home : decodeWord 0b000000010 = .ok (.cmdReturnHome 0) := by decide
theorem test_decode_entry_mode : decodeWord 0b000000101 = .ok (.cmdEntryMode false true) := by decide
theorem test_decode_display_control : decodeWord 0b000001011 = .ok (.cmdDisplayControl false true true) := by decide
theorem test_decode_shift : decodeWord 0b000010110 = .ok (.cmdShift false true 2) := by decide
theorem test_decode_function_set : decodeWord 0b000101000 = .ok (.cmdFunctionSet false true false 0) := by decide
theorem test_decode_cgram : decodeWord 0b001111000 = .ok (.cmdSetCgramAddr 0b111000) := by decide
theorem test_decode_ddram : decodeWord 0b011100111 = .ok (.cmdSetDdramAddr 0b1100111) := by decide
theorem test_decode_data : decodeWord 0b100000000 = .ok (.dataByte 0) := by decide
theorem test_decode_no_class : decodeWord 0b000000000 = .error .noCommandClass := by decide
theorem test_table_word : decodeTableWord 8 0x1C = some (.cmdShift true true 0) := by decide
theorem test_table_word_refused : decodeTableWord 8 0x00 = none := by decide

theorem test_step_runs_fetched_word :
    traceOf (step (State.reset.withFetchWord 8 0x1C)) = some (cmd 0x1C) := by decide
theorem test_step_runs_port_operation :
    traceOf (step (up8.load [.write 0x41])) = some (dat 0x41) := by decide

/-! ## Sequencer: vectors T1 to T11 -/

theorem test_T1_setMode_command : pinsOf (exec (.setMode .command) State.reset) = some [.drive 12 false] := by decide
theorem test_T2_setMode_data_with_rw :
    pinsOf (exec (.setMode .data) { State.reset with cfg := { Config.default with rwPin := some 10 } })
      = some [.drive 12 true, .drive 10 false] := by decide
theorem test_T3_write4bits :
    pinsOf (exec (.write4bits 0x3) (State.resetWith four))
      = some ([.drive 5 true, .drive 4 true, .drive 3 false, .drive 2 false] ++ pulse) := by decide
theorem test_T4_write4bits_ignores_high_bits :
    traceOf (exec (.write4bits 0x28) (State.resetWith four)) = some [.write4 0x8] := by decide
theorem test_T5_write8bits_eight :
    pinsOf (exec (.write8bits 0xA5) State.reset)
      = some ([.drive 2 true, .drive 3 false, .drive 4 true, .drive 5 false, .drive 6 false, .drive 7 true,
          .drive 8 false, .drive 9 true] ++ pulse) := by decide
theorem test_T6_write8bits_four :
    pinsOf (exec (.write8bits 0xA5) (State.resetWith four))
      = some ([.drive 5 false, .drive 4 true, .drive 3 false, .drive 2 true] ++ pulse ++
          ([.drive 5 true, .drive 4 false, .drive 3 true, .drive 2 false] ++ pulse)) := by decide
theorem test_T9_fourbitmode :
    (match exec .fourbitmode (State.resetWith four) with
      | .next t => decide (t.answer = some true ∧ t.trace = [])
      | .fault _ | .refused _ => false) = true := by decide
theorem test_T11_write4bits_on_eight_wires :
    pinsOf (exec (.write4bits 0x5) State.reset)
      = some ([.drive 2 true, .drive 3 false, .drive 4 true, .drive 5 false] ++ pulse) := by decide
theorem test_pulseEnable : pinsOf (exec .pulseEnable State.reset) = some pulse := by decide
theorem test_send : traceOf (exec (.send 0x41 .data) State.reset) = some (dat 0x41) := by decide

/-! ## Transfers as instructions -/

theorem test_cmdClear : traceOf (exec .cmdClear State.reset) = some (cmd 0x01) := by decide
theorem test_cmdReturnHome : traceOf (exec (.cmdReturnHome 1) State.reset) = some (cmd 0x03) := by decide
theorem test_cmdEntryMode : traceOf (exec (.cmdEntryMode true false) State.reset) = some (cmd 0x06) := by decide
theorem test_cmdDisplayControl : traceOf (exec (.cmdDisplayControl true false true) State.reset) = some (cmd 0x0D) := by decide
theorem test_cmdShift : traceOf (exec (.cmdShift true false 0) State.reset) = some (cmd 0x18) := by decide
theorem test_cmdFunctionSet : traceOf (exec (.cmdFunctionSet true true false 0) State.reset) = some (cmd 0x38) := by decide
theorem test_cmdSetCgramAddr : traceOf (exec (.cmdSetCgramAddr 0x18) State.reset) = some (cmd 0x58) := by decide
theorem test_cmdSetDdramAddr : traceOf (exec (.cmdSetDdramAddr 0x67) State.reset) = some (cmd 0xE7) := by decide
theorem test_dataByte : traceOf (exec (.dataByte 0xFF) State.reset) = some (dat 0xFF) := by decide

/-! ## begin: vectors B1 and B7 (the trace of R139) -/

theorem test_B1_begin_eight :
    traceOf (exec (.begin 16 2 0) State.reset)
      = some ([.delay 50000] ++ cmd 0x38 ++ [.delay 4500] ++ cmd 0x38 ++ cmd 0x0C ++ cmd 0x01 ++ [.delay 2000]
          ++ cmd 0x06) := by decide
theorem test_B7_begin_four :
    traceOf (exec (.begin 16 2 0) (State.resetWith four))
      = some [.delay 50000, .setMode .command, .write4 3, .delay 4500, .setMode .command, .write4 3, .delay 4500,
          .setMode .command, .write4 3, .delay 150, .setMode .command, .write4 2,
          .setMode .command, .write8 0x28, .write4 0x2, .write4 0x8,
          .setMode .command, .write8 0x0C, .write4 0x0, .write4 0xC,
          .setMode .command, .write8 0x01, .write4 0x0, .write4 0x1, .delay 2000,
          .setMode .command, .write8 0x06, .write4 0x0, .write4 0x6] := by decide
theorem test_R131_function_flags :
    functionFlags false 2 0 = 0x18 ∧ functionFlags false 1 1 = 0x14 ∧ functionFlags false 2 1 = 0x18 ∧
    functionFlags false 0 5 = 0x10 ∧ functionFlags true 1 0xFF = 0x04 ∧ functionFlags true 4 0 = 0x08 := by decide

/-! ## Display, shift, entry mode -/

theorem test_H1_clear : traceOf (exec .clear up8) = some (cmd 0x01 ++ [.delay 2000]) := by decide
theorem test_H2_home_four :
    traceOf (exec .home up4) = some [.setMode .command, .write8 0x02, .write4 0x0, .write4 0x2] := by decide
theorem test_K9_noDisplay : traceOf (exec .noDisplay { up8 with dc := 0x07 }) = some (cmd 0x0B) := by decide
theorem test_K10_display : dcOf (exec .display { up8 with dc := 0x03 }) = some 0x07 := by decide
theorem test_K11_noCursor : traceOf (exec .noCursor { up8 with dc := 0x01 }) = some (cmd 0x09) := by decide
theorem test_K5_cursor : traceOf (exec .cursor { up8 with dc := 0x00 }) = some (cmd 0x0A) := by decide
theorem test_K8_noBlink : dcOf (exec .noBlink { up8 with dc := 0x07 }) = some 0x06 := by decide
theorem test_K7_blink : traceOf (exec .blink up8) = some (cmd 0x0D) := by decide
theorem test_S1_scrollDisplayLeft : traceOf (exec .scrollDisplayLeft up8) = some (cmd 0x18) := by decide
theorem test_S2_scrollDisplayRight : traceOf (exec .scrollDisplayRight up8) = some (cmd 0x1C) := by decide
theorem test_M6_leftToRight : traceOf (exec .leftToRight { up8 with dm := 0x01 }) = some (cmd 0x07) := by decide
theorem test_M7_rightToLeft : dmOf (exec .rightToLeft { up8 with dm := 0x03 }) = some 0x01 := by decide
theorem test_M4_autoscroll : traceOf (exec .autoscroll { up8 with dm := 0x00 }) = some (cmd 0x05) := by decide
theorem test_M5_noAutoscroll : dmOf (exec .noAutoscroll { up8 with dm := 0x03 }) = some 0x02 := by decide

/-! ## Addressing and data -/

theorem test_G5_createChar :
    traceOf (exec (.createChar 11 ⟨0x00, 0x0A, 0x1F, 0x1F, 0x0E, 0x04, 0x00, 0xFF⟩) up8)
      = some (cmd 0x58 ++ dat 0x00 ++ dat 0x0A ++ dat 0x1F ++ dat 0x1F ++ dat 0x0E ++ dat 0x04 ++ dat 0x00
          ++ dat 0xFF) := by decide
theorem test_setCursor_bytes :
    traceOf (exec (.setCursor 3 9) up8) = some (cmd 0xC3) ∧
    traceOf (exec (.setCursor 0x40 1) up8) = some (cmd 0x80) ∧
    traceOf (exec (.setCursor 255 3) { up8 with numlines := 4 }) = some (cmd 0xD3) ∧
    traceOf (exec (.setCursor 0 2) { up8 with cfg := { up8.cfg with rowClamp := .gt } }) = some (cmd 0x94) := by decide
theorem test_setCursor_faults :
    faultOf (exec (.setCursor 0 0) { up8 with numlines := 0 }) = some (some (.rowOutOfTable 0 0 255 0)) ∧
    faultOf (exec (.setCursor 0 4) { up8 with numlines := 6 }) = some (some (.rowOutOfTable 0 4 4 6)) := by decide
theorem test_W3_write_four :
    traceOf (exec (.write 0xFF) up4) = some [.setMode .data, .write8 0xFF, .write4 0xF, .write4 0xF] := by decide
theorem test_W5_command :
    traceOf (exec (.command 0x0F) up8) = some (cmd 0x0F) ∧ dcOf (exec (.command 0x0F) up8) = some 0x04 := by decide

/-! ## Faults: vectors F1 to F4 -/

theorem test_F1_before_begin : faultOf (exec .home State.reset) = some (some (.notInitialized .home)) := by decide
theorem test_F2_priority :
    faultOf (exec (.setCursor 0 9) State.reset) = some (some (.notInitialized (.setCursor 0 9))) := by decide
theorem test_F3_second_begin : faultOf (exec (.begin 16 2 0) up8) = some (some .beginTwice) := by decide
theorem test_F4_no_step : traceOf (step { up8 with fault := some .beginTwice, port := [.op .clear] }) = none := by decide

/-! ## Assembly (R94) -/

/-- `setCursor(5, 1) ; go` -/
theorem test_assemble_decimal_and_comment :
    assemble (nameSetCursor ++ text ['(', '5', ',', ' ', '1', ')', ' ', ';', ' ', 'g', 'o'])
      = .ok [.setCursor 5 1] := by decide
/-- `write('A')` and `print("Hi")` on two lines -/
theorem test_assemble_char_and_print :
    assemble (nameWrite ++ [ascii '(', 0x27, ascii 'A', 0x27, ascii ')', 0x0A] ++ namePrint
      ++ [ascii '(', 0x22, ascii 'H', ascii 'i', 0x22, ascii ')'])
      = .ok [.write 0x41, .write 0x48, .write 0x69] := by decide
theorem test_assemble_wide_operand_refused :
    assemble (nameWrite ++ text ['(', '2', '5', '6', ')']) = .error (.badOperands nameWrite) := by decide

/-! ## Witnesses: states and operands that meet the hypotheses of the statements -/

/-- reset with `begin(16, 2, 0)` to issue -/
def booting : State := State.reset.load [.begin 16 2 0]

/-- after begin, with clear to issue -/
def issuing : State := up8.load [.clear]

theorem witness_DecodedWordReencodesToItself : (Request.word 0x1C).decode = .ok (.cmdShift true true 0) := by decide
theorem witness_AssemblyReadsBackRenderedOperation : render .clear = some (nameClear ++ [ascii '(', ascii ')']) := by decide
theorem witness_PseudoOperationsExpand : ∀ b ∈ [ascii 'H', ascii 'i'], b ≠ (0x22 : Byte) ∧ b ≠ (0x0A : Byte) := by decide
theorem witness_StepRunsDecodedRequest :
    issuing.fault = none ∧ issuing.port = [.op .clear] ∧ (Request.op .clear).decode = .ok .clear := by decide
theorem witness_StepRefusesIllFormedRequest :
    ({ up8 with port := [.op .pulseEnable] } : State).fault = none ∧ (Request.op .pulseEnable).wellFormed = false := by decide
theorem witness_IdleStepChangesNothing : up8.fault = none ∧ up8.port = [] := by decide
theorem witness_internal_calls_and_transfers : State.reset.fault = none := by decide
theorem witness_SetMode_direct_pin : State.reset.fault = none ∧ State.reset.cfg.transport = .directPin := by decide
theorem witness_Write4bits_direct_pin :
    State.reset.fault = none ∧ State.reset.cfg.transport = .directPin ∧
    dataPins State.reset.cfg = 2 :: 3 :: 4 :: 5 :: [6, 7, 8, 9] ∧ dataPins four = 5 :: 4 :: 3 :: 2 :: [] := by decide
theorem witness_Write8bits_eight :
    State.reset.fault = none ∧ State.reset.cfg.wiring = .eight 2 3 4 5 6 7 8 9 ∧
    State.reset.cfg.transport = .directPin := by decide
theorem witness_Write8bits_four :
    (State.resetWith four).fault = none ∧ (State.resetWith four).cfg.wiring = .four 5 4 3 2 ∧
    (State.resetWith four).cfg.transport = .directPin := by decide
theorem witness_CommandClasses : Instr.cmdShift true false 3 = .cmdShift true false 3 ∧
    27 = 16 + 8 * true.toNat + 4 * false.toNat + (3 : BitVec 2).toNat := by decide
theorem witness_Begin_first : State.reset.fault = none ∧ State.reset.init = false ∧ fourbit State.reset.cfg = false ∧
    (State.resetWith four).init = false ∧ fourbit (State.resetWith four).cfg = true := by decide
theorem witness_Begin_second : up8.fault = none ∧ up8.init = true := by decide
theorem witness_Running : Running up8 ∧ Running up4 := ⟨⟨rfl, rfl⟩, ⟨rfl, rfl⟩⟩
theorem witness_GuardedByInit : State.reset.fault = none ∧ State.reset.init = false := by decide
theorem witness_SetCursor_last_row_in_table :
    Running { up8 with numlines := 4 } ∧ clampedRow .ge 4 3 = 3 ∧
    [up8.cfg.rowBase.row0, up8.cfg.rowBase.row1, up8.cfg.rowBase.row2, up8.cfg.rowBase.row3][clampedRow .ge 4 3]?
      = some 0x54 := ⟨⟨rfl, rfl⟩, by decide, by decide⟩
theorem witness_SetCursor_first_row_outside :
    Running { up8 with numlines := 5 } ∧ 4 ≤ clampedRow .ge 5 4 := ⟨⟨rfl, rfl⟩, by decide⟩
theorem witness_SetCursor_no_rows :
    Running { up8 with numlines := 0 } ∧ up8.cfg.rowClamp = .ge ∧ ({ up8 with numlines := 0 } : State).numlines = 0 :=
  ⟨⟨rfl, rfl⟩, rfl, rfl⟩
theorem witness_SetCursor_more_than_four_rows :
    Running { up8 with numlines := 5 } ∧ 4 ≤ (4 : Byte).toNat ∧ (4 : Byte).toNat < (5 : Byte).toNat :=
  ⟨⟨rfl, rfl⟩, by decide, by decide⟩
theorem witness_OperationBeforeBegin :
    State.reset.fault = none ∧ State.reset.init = false ∧ Instr.home.isInputOp = true := by decide
theorem witness_OperationBeforeBegin_not_begin : ∀ c r z, Instr.home ≠ .begin c r z := by simp
theorem witness_InitCheckComesBeforeRowCheck :
    State.reset.fault = none ∧ State.reset.init = false ∧
    4 ≤ clampedRow State.reset.cfg.rowClamp State.reset.numlines.toNat (9 : Byte).toNat := by decide
theorem witness_FaultEntry : ∃ t r, exec .home State.reset = .next t ∧ t.fault = some r := ⟨_, _, rfl, rfl⟩
theorem witness_NoStepAfterFault : ({ up8 with fault := some .beginTwice } : State).fault = some .beginTwice := rfl
/-- On 8-bit wiring a nibble after a byte breaks the laws of R187. -/
theorem test_trace_laws_refuse_stray_nibble : ¬ TraceLaws false [.setMode .command, .write8 0x38, .write4 0x8] := by
  intro h
  obtain ⟨hf, _⟩ | ⟨hf, _⟩ | ⟨pre, hp⟩ := h.write4Placed [.setMode .command, .write8 0x38] 0x8 [] rfl
  · cases hf
  · cases hf
  · simp [List.cons_eq_append_iff] at hp
theorem witness_step_next : ∃ t, step issuing = .next t ∧ issuing.init = true := ⟨_, rfl, rfl⟩
theorem witness_register_written : ∃ t, exec .noDisplay up8 = .next t ∧ t.dc ≠ up8.dc := ⟨_, rfl, by decide⟩
theorem witness_entry_register_written : ∃ t, exec .autoscroll up8 = .next t ∧ t.dm ≠ up8.dm := ⟨_, rfl, by decide⟩
theorem witness_begin_registers_written : ∃ t, exec (.begin 16 2 0) State.reset = .next t ∧
    t.df ≠ State.reset.df ∧ t.numlines ≠ State.reset.numlines ∧ t.init ≠ State.reset.init :=
  ⟨_, rfl, by decide, by decide, by decide⟩
theorem witness_StepKeepsFlagsInFields : FlagsInFields issuing ∧ issuing.init = true ∧ ∃ t, step issuing = .next t :=
  ⟨fun _ => by decide, rfl, _, rfl⟩
theorem witness_StepKeepsLinesFollowingPins : LinesFollowPins booting ∧ ∃ t, step booting = .next t :=
  ⟨⟨rfl, fun _ => rfl⟩, _, rfl⟩
theorem witness_StepKeepsEnableLow : EnableLow booting ∧ booting.cfg.transport = .directPin ∧
    booting.cfg.ePin ≠ booting.cfg.rsPin ∧ ∃ t, step booting = .next t :=
  ⟨fun _ _ => by decide, rfl, by decide, _, rfl⟩
/-- Program 1's block with a read/write line on pin 10 -/
def withReadWrite : State := { booting with cfg := { booting.cfg with rwPin := some 10 } }
theorem witness_StepKeepsReadWriteLow : ReadWriteLow withReadWrite ∧ withReadWrite.cfg.rwPin = some 10 ∧
    10 ≠ withReadWrite.cfg.rsPin ∧ 10 ≠ withReadWrite.cfg.ePin ∧ 10 ∉ dataPins withReadWrite.cfg ∧
    ∃ t, step withReadWrite = .next t :=
  ⟨fun _ _ _ _ _ => by simp [withReadWrite, booting, State.load, State.reset, State.resetWith],
    rfl, by decide, by decide, by decide, _, rfl⟩
/-- the same block on another transport -/
def withReadWriteOther : State := { withReadWrite with cfg := { withReadWrite.cfg with transport := .other } }
theorem witness_StepKeepsReadWriteLow_other : ReadWriteLow withReadWriteOther ∧
    withReadWriteOther.cfg.transport = .other ∧ ∃ t, step withReadWriteOther = .next t :=
  ⟨fun _ _ _ _ _ => by simp [withReadWriteOther, withReadWrite, booting, State.load, State.reset, State.resetWith],
    rfl, _, rfl⟩
/-- A drive of the read/write line to 1 is outside the limits; on a pin shared with register select it is that line's. -/
theorem test_read_write_limit :
    withinLimits withReadWriteOther.cfg (.delay 1) [.drive 10 true, .wait 1] = false ∧
    drivesReadWriteHigh { withReadWriteOther.cfg with rwPin := some 12 } [.drive 12 true] = false := by decide
theorem witness_StepKeepsPinTraceLowered : PinsLowerTrace booting ∧ ∃ t, step booting = .next t :=
  ⟨⟨rfl, by decide⟩, _, rfl⟩
theorem witness_StepKeepsTraceLaws : TraceLawful booting ∧ ∃ t, step booting = .next t := by
  refine ⟨⟨?_, ?_⟩, _, rfl⟩
  · simp [booting, State.load, State.reset, State.resetWith]
  · constructor <;> simp [booting, State.load, State.reset, State.resetWith]
theorem witness_StepKeepsFaultRecorded : FaultRecorded (State.reset.load [.home]) ∧
    ∃ t, step (State.reset.load [.home]) = .next t ∧ t.fault = some (.notInitialized .home) := ⟨trivial, _, rfl, rfl⟩
theorem witness_OnlyWriteAndCreateCharSelectData :
    (Instr.write 0x41).isInputOp = true ∧ ∃ t, exec (.write 0x41) up8 = .next t ∧ .setMode .data ∈ t.trace :=
  ⟨rfl, _, rfl, by decide⟩
theorem witness_OnlyBeginSendsBareNibbles : ∃ t pre post, exec (.begin 16 2 0) (State.resetWith four) = .next t ∧
    t.trace = pre ++ .setMode .command :: .write4 3 :: post := ⟨_, [.delay 50000], _, rfl, rfl⟩
theorem witness_UnspecifiedRegisters : Alike booting { booting with df := 0xFF, numlines := 9 } ∧
    ({ booting with df := 0xFF, numlines := 9 } : State) ≠ booting :=
  ⟨⟨rfl, rfl, rfl, rfl, rfl, rfl, rfl, rfl, by decide⟩, by decide⟩
theorem witness_TransportKind : ∃ t, exec .clear upOther = .next t ∧ upOther.cfg.transport = .other := ⟨_, rfl, rfl⟩
theorem witness_Wiring : Instr.home.isInputOp = true ∧ ∃ t, exec .home up4 = .next t := ⟨rfl, _, rfl⟩
/-- What `SameBytes` asks holds of any two blocks that differ in the wiring alone and have sent nothing since. -/
theorem sameBytes_of_wiring (s : State) (w : Wiring) (df : Byte) (hi : s.init = true) :
    SameBytes s.trace s.trace s { s with cfg := { s.cfg with wiring := w }, df := df } :=
  ⟨⟨w, rfl⟩, rfl, rfl, ⟨hi, hi⟩, rfl, rfl, rfl, rfl, [], [], by simp, by simp, rfl⟩
theorem witness_StepKeepsBytesEqual_next : SameBytes [] [] issuing (up4.load [.clear]) ∧
    issuing.cfg.wiring ≠ up4.cfg.wiring ∧ ∃ t, step issuing = .next t :=
  ⟨sameBytes_of_wiring issuing (.four 5 4 3 2) 0x08 rfl, by decide, _, rfl⟩
theorem witness_StepKeepsBytesEqual_fault :
    SameBytes [] [] { up8 with fault := some .beginTwice } { up4 with fault := some .beginTwice } ∧
    step { up8 with fault := some .beginTwice } = .fault (.noStep .beginTwice) :=
  ⟨sameBytes_of_wiring { up8 with fault := some .beginTwice } (.four 5 4 3 2) 0x08 rfl, rfl⟩
theorem witness_StepKeepsBytesEqual_refused :
    SameBytes [] [] { up8 with port := [.word 0] } { up4 with port := [.word 0] } ∧
    step { up8 with port := [.word 0] } = .refused (.undecodable .noCommandClass) :=
  ⟨sameBytes_of_wiring { up8 with port := [.word 0] } (.four 5 4 3 2) 0x08 rfl, rfl⟩
theorem witness_pulse_pins_apart : Config.default.ePin ≠ Config.default.rsPin ∧
    Config.default.ePin ∉ dataPins Config.default ∧ upOther.cfg.ePin ≠ upOther.cfg.rsPin ∧
    upOther.cfg.ePin ∉ dataPins upOther.cfg := by decide
theorem witness_LeastDurations : up8.cfg.transport = .directPin ∧ up8.cfg.timing = Config.defaultTiming ∧
    (∃ t, exec .clear up8 = .next t ∧ t.fault = none) ∧
    leastDuration (fourbit up8.cfg) up8.cfg.fsRepeats .clear = some 2102 := ⟨rfl, rfl, ⟨_, rfl, rfl⟩, rfl⟩

end Sys2Proof.Tests
end

section
/-! PROOFS. The step of R11 and R12 (O8), and the pin trace as the lowering of the transport-call trace of R10 (O49),
with what they need of the decoder, of `registers` and of `result`. -/

namespace Sys2Proof.Machine

/-! ## The host's list -/

theorem takeRequest_cons {s : State} {q : Request} {rest : List Request} (h : s.port = q :: rest) :
    takeRequest s = some (q, { s with port := rest }) := by
  rw [takeRequest, h]

/-- Settles O8: with no fault, `step` takes the head of the list and its decoding selects the arm that runs `exec`. -/
theorem stepRunsDecodedRequest : Obligations.StepRunsDecodedRequest := by
  intro s q rest i hf hp hq
  simp only [step, hf, takeRequest_cons hp, hq]

/-! ## What a request decodes to -/

/-- A transfer word carries a command class or a data byte: never an operation, never an internal call (R70, R71). -/
theorem decodeWord_ok_interface {w : TransferWord} {i : Instr} (h : decodeWord w = .ok i) :
    i.isInputOp = false ∧ i.isInternalCall = false := by
  unfold decodeWord decodeTransfer at h
  split at h
  · unfold decodeCommand at h
    repeat' split at h
    all_goals cases h <;> exact ⟨rfl, rfl⟩
  · cases h
    exact ⟨rfl, rfl⟩

/-- The inversion of `decode`: the instruction belongs to the interface its request arrived on (R70, R71, R92). -/
theorem decode_ok_cases {q : Request} {i : Instr} (h : q.decode = .ok i) :
    (q = .op i ∧ i.isInputOp = true) ∨ (q = .call i ∧ i.isInternalCall = true) ∨
      ∃ w, q = .word w ∧ w < 512 ∧ decodeWord (BitVec.ofNat 9 w) = .ok i := by
  cases q with
  | op j =>
    rw [Request.decode] at h
    split at h
    case isTrue hop => cases h; exact .inl ⟨rfl, hop⟩
    case isFalse => cases h
  | call j =>
    rw [Request.decode] at h
    split at h
    case isTrue hcall => cases h; exact .inr (.inl ⟨rfl, hcall⟩)
    case isFalse => cases h
  | word w =>
    rw [Request.decode] at h
    split at h
    case isTrue hw => exact .inr (.inr ⟨w, rfl, hw, h⟩)
    case isFalse => cases h

theorem isInternalCall_of_isInputOp {i : Instr} (h : i.isInputOp = true) : i.isInternalCall = false := by
  have hf : i.format = .inputOp := of_decide_eq_true h
  simp [Instr.isInternalCall, hf]

/-- An internal call is decoded from the call itself and from no other request (R70). -/
theorem eq_call_of_decode {q : Request} {i : Instr} (h : q.decode = .ok i) (hi : i.isInternalCall = true) :
    q = .call i := by
  obtain ⟨_, hop⟩ | ⟨hq, _⟩ | ⟨w, _, _, hw⟩ := decode_ok_cases h
  · simp [isInternalCall_of_isInputOp hop] at hi
  · exact hq
  · simp [(decodeWord_ok_interface hw).2] at hi

/-! ## The registers an instruction writes leave the configuration, the traces and the list alone -/

@[simp] theorem registers_cfg (i : Instr) (s : State) : (registers i s).cfg = s.cfg := by cases i <;> rfl
@[simp] theorem registers_trace (i : Instr) (s : State) : (registers i s).trace = s.trace := by cases i <;> rfl
@[simp] theorem registers_pins (i : Instr) (s : State) : (registers i s).pins = s.pins := by cases i <;> rfl
@[simp] theorem registers_port (i : Instr) (s : State) : (registers i s).port = s.port := by cases i <;> rfl

/-- An instruction on a state without a fault raises its fault, is the bare pulse, or writes registers and emits. -/
theorem result_cases (i : Instr) (s : State) :
    (∃ r, raises i s = some r ∧ result i s = raise r s) ∨
      (raises i s = none ∧ i = .pulseEnable ∧ result i s = pulseEnable s) ∨
      (raises i s = none ∧ i ≠ .pulseEnable ∧ result i s = emitAll (events i s) (registers i s)) := by
  cases hr : raises i s with
  | some r => exact .inl ⟨r, rfl, by rw [result, hr]⟩
  | none =>
    by_cases hi : i = .pulseEnable
    · exact .inr (.inl ⟨rfl, hi, by simp only [result, hr, if_pos hi]⟩)
    · exact .inr (.inr ⟨rfl, hi, by simp only [result, hr, if_neg hi]⟩)

/-! ## The pin trace is the lowering of the transport-call trace (R10) -/

theorem PinsLowerTrace.emitAll {s : State} (h : PinsLowerTrace s) (evs : List TransportEvent) :
    PinsLowerTrace (emitAll evs s) := by
  obtain ⟨hpins, hport⟩ := h
  exact ⟨by simp [hpins], hport⟩

theorem PinsLowerTrace.registers {s : State} (h : PinsLowerTrace s) (i : Instr) :
    PinsLowerTrace (registers i s) := by
  simpa [PinsLowerTrace] using h

/-- Every instruction but the bare pulse, which has no transport event (R118), keeps the two traces together. -/
theorem PinsLowerTrace.result {s : State} (h : PinsLowerTrace s) {i : Instr} (hi : i ≠ .pulseEnable) :
    PinsLowerTrace (result i s) := by
  obtain ⟨r, _, he⟩ | ⟨_, hp, _⟩ | ⟨_, _, he⟩ := result_cases i s
  · rw [he]; exact h
  · exact absurd hp hi
  · rw [he]; exact (h.registers i).emitAll _

theorem PinsLowerTrace.dropRequest {s : State} {q : Request} {rest : List Request} (h : PinsLowerTrace s)
    (hp : s.port = q :: rest) : PinsLowerTrace { s with port := rest } := by
  obtain ⟨hpins, hport⟩ := h
  refine ⟨hpins, fun hmem => hport ?_⟩
  rw [hp]
  exact List.mem_cons_of_mem q hmem

/-- Settles O49: the head of the list is no bare pulse, so the instruction it decodes to is none either, and every
other instruction appends events to the one trace and their lowering to the other. -/
theorem stepKeepsPinTraceLowered : Obligations.StepKeepsPinTraceLowered := by
  intro s t h hstep
  obtain ⟨_, ⟨_, rfl⟩ | ⟨q, rest, i, hp, hq, rfl⟩⟩ := step_next hstep
  · exact h
  · have hi : i ≠ .pulseEnable := by
      rintro rfl
      have hcall : q = .call .pulseEnable := eq_call_of_decode hq rfl
      exact h.2 (by simp [hp, hcall])
    exact (h.dropRequest hp).result hi

end Sys2Proof.Machine
end

section
/-! PROOFS. What every step keeps (10_state.md): the case split over a step packaged once, the registers of R28 and their
writers (O40, O41, O42), the invariants at reset (O7, O44) and through a step (O45, O46, O48). -/

namespace Sys2Proof.Machine

/-! ## The case split over a step, packaged once -/

/-- What raising, emitting and the registers of one instruction keep, the instruction keeps. -/
theorem result_keeps {P : State → Prop} {i : Instr} {s : State}
    (hraise : ∀ r, P (raise r s)) (hpulse : P (pulseEnable s)) (hregisters : P (registers i s))
    (hemit : ∀ evs u, P u → P (emitAll evs u)) : P (result i s) := by
  obtain ⟨r, _, he⟩ | ⟨_, _, he⟩ | ⟨_, _, he⟩ := result_cases i s
  · rw [he]; exact hraise r
  · rw [he]; exact hpulse
  · rw [he]; exact hemit _ _ hregisters

/-- A step keeps what taking a request off the list and every part of an instruction keep. -/
theorem step_keeps {P : State → Prop} {s t : State} (h : P s) (hstep : step s = .next t)
    (hport : ∀ rest u, P u → P { u with port := rest })
    (hraise : ∀ r u, P u → P (raise r u)) (hpulse : ∀ u, P u → P (pulseEnable u))
    (hregisters : ∀ i u, P u → P (registers i u)) (hemit : ∀ evs u, P u → P (emitAll evs u)) : P t := by
  obtain ⟨_, ⟨_, rfl⟩ | ⟨q, rest, i, _, _, rfl⟩⟩ := step_next hstep
  · exact h
  · have hu := hport rest s h
    exact result_keeps (fun r => hraise r _ hu) (hpulse _ hu) (hregisters i _ hu) hemit

/-! ## The registers and their writers (R28) -/

@[simp] theorem registers_line (i : Instr) (s : State) : (registers i s).line = s.line := by cases i <;> rfl

/-- No instruction clears `INIT` (R25). -/
theorem registers_init_of_init (i : Instr) {s : State} (h : s.init = true) : (registers i s).init = true := by
  cases i with
  | begin => rfl
  | _ => exact h

/-- The writers of `DF`, `NUMLINES`, `CURLINE` and `INIT` (R21, R25 to R27). -/
theorem registers_of_ne_begin {i : Instr} (h : ∀ a b c, i ≠ .begin a b c) (s : State) :
    (registers i s).df = s.df ∧ (registers i s).numlines = s.numlines ∧
      (registers i s).curline = s.curline ∧ (registers i s).init = s.init := by
  cases i with
  | begin a b c => exact absurd rfl (h a b c)
  | _ => exact ⟨rfl, rfl, rfl, rfl⟩

/-- The writers of `DC` (R23). -/
theorem registers_dc_of_ne_writer {i : Instr} (hb : ∀ a b c, i ≠ .begin a b c)
    (hi : i ∉ [.display, .noDisplay, .cursor, .noCursor, .blink, .noBlink]) (s : State) :
    (registers i s).dc = s.dc := by
  cases i with
  | begin a b c => exact absurd rfl (hb a b c)
  | display | noDisplay | cursor | noCursor | blink | noBlink => simp at hi
  | _ => rfl

/-- The writers of `DM` (R24). -/
theorem registers_dm_of_ne_writer {i : Instr} (hb : ∀ a b c, i ≠ .begin a b c)
    (hi : i ∉ [.leftToRight, .rightToLeft, .autoscroll, .noAutoscroll]) (s : State) :
    (registers i s).dm = s.dm := by
  cases i with
  | begin a b c => exact absurd rfl (hb a b c)
  | leftToRight | rightToLeft | autoscroll | noAutoscroll => simp at hi
  | _ => rfl

/-- From `s` to `t`, each register changed only if the access summary lists `i` among its writers (R28). -/
def WritesAsListed (i : Instr) (s t : State) : Prop :=
  (t.df ≠ s.df ∨ t.numlines ≠ s.numlines ∨ t.curline ≠ s.curline ∨ t.init ≠ s.init → ∃ a b c, i = .begin a b c) ∧
    (t.dc ≠ s.dc → (∃ a b c, i = .begin a b c) ∨
      i ∈ [.display, .noDisplay, .cursor, .noCursor, .blink, .noBlink]) ∧
    (t.dm ≠ s.dm → (∃ a b c, i = .begin a b c) ∨ i ∈ [.leftToRight, .rightToLeft, .autoscroll, .noAutoscroll])

theorem writesAsListed_self (i : Instr) (s : State) : WritesAsListed i s s := by simp [WritesAsListed]

/-- Each clause by contraposition: an instruction outside the clause's list leaves the register. -/
theorem writesAsListed_registers (i : Instr) (s : State) : WritesAsListed i s (registers i s) := by
  refine ⟨fun hw => ?_, fun hw => ?_, fun hw => ?_⟩ <;> by_contra hn <;> push Not at hn
  · obtain ⟨hdf, hnumlines, hcurline, hinit⟩ := registers_of_ne_begin hn s
    simp [hdf, hnumlines, hcurline, hinit] at hw
  · exact hw (registers_dc_of_ne_writer hn.1 hn.2 s)
  · exact hw (registers_dm_of_ne_writer hn.1 hn.2 s)

/-- Settles O41: a fault or an event writes none of the registers, so what changed was written by `registers`. -/
theorem onlyListedOperationsWriteRegisters : Obligations.OnlyListedOperationsWriteRegisters := by
  intro i s t h
  obtain ⟨_, rfl⟩ := exec_next h
  exact result_keeps (P := WritesAsListed i s) (fun _ => writesAsListed_self i s) (writesAsListed_self i s)
    (writesAsListed_registers i s) fun _ _ h => h

/-- Settles O40: nothing a step is made of writes the configuration. -/
theorem stepKeepsConfiguration : Obligations.StepKeepsConfiguration := by
  intro s t hstep
  exact step_keeps (P := fun u => u.cfg = s.cfg) rfl hstep (fun _ _ h => h) (fun _ _ h => h) (fun _ h => h)
    (fun i u h => (registers_cfg i u).trans h) fun _ _ h => h

/-- Settles O42: `INIT` is written by begin alone, and to 1. -/
theorem stepNeverClearsInit : Obligations.StepNeverClearsInit := by
  intro s t hstep hinit
  exact step_keeps (P := fun u => u.init = true) hinit hstep (fun _ _ h => h) (fun _ _ h => h) (fun _ h => h)
    (fun i _ h => registers_init_of_init i h) fun _ _ h => h

/-! ## Flags in their fields (R22) -/

/-- Setting a flag inside the field keeps the bits outside it 0. -/
theorem setFlag_and_eq_zero {reg flag outside : Byte} (h : reg &&& outside = 0) (hf : flag &&& outside = 0) :
    setFlag reg flag &&& outside = 0 := by
  rw [setFlag, BitVec.and_or_distrib_right, h, hf, BitVec.or_self]

/-- Clearing a flag, inside the field or not, keeps the bits outside it 0. -/
theorem clearFlag_and_eq_zero {reg outside : Byte} (h : reg &&& outside = 0) (flag : Byte) :
    clearFlag reg flag &&& outside = 0 := by
  rw [clearFlag, BitVec.and_assoc, BitVec.and_comm (~~~flag), ← BitVec.and_assoc, h]
  exact BitVec.zero_and

/-- The flags begin gives `DF` lie in its fields (R131). -/
theorem functionFlags_and_eq_zero (fb : Bool) (rows charsize : Byte) :
    functionFlags fb rows charsize &&& 0xE3 = 0 := by
  unfold functionFlags
  split_ifs <;> decide

theorem FlagsInFields.writeDc {s : State} {v : Byte} (h : FlagsInFields s)
    (hv : s.dc &&& 0xF8 = 0 → v &&& 0xF8 = 0) : FlagsInFields (writeDc v s) := fun hi =>
  let ⟨hdf, hdc, hdm⟩ := h hi
  ⟨hdf, hv hdc, hdm⟩

theorem FlagsInFields.writeDm {s : State} {v : Byte} (h : FlagsInFields s)
    (hv : s.dm &&& 0xFC = 0 → v &&& 0xFC = 0) : FlagsInFields (writeDm v s) := fun hi =>
  let ⟨hdf, hdc, hdm⟩ := h hi
  ⟨hdf, hdc, hv hdm⟩

/-- begin writes all three registers inside their fields; the flag operations set or clear one flag of the field. -/
theorem FlagsInFields.registers {s : State} (h : FlagsInFields s) (i : Instr) : FlagsInFields (registers i s) := by
  cases i with
  | begin cols rows charsize =>
    have hdc : (0x04 : Byte) &&& 0xF8 = 0 := by decide
    have hdm : (0x02 : Byte) &&& 0xFC = 0 := by decide
    exact fun _ => ⟨functionFlags_and_eq_zero _ rows charsize, hdc, hdm⟩
  | display | cursor | blink => exact h.writeDc (setFlag_and_eq_zero · (by decide))
  | noDisplay | noCursor | noBlink => exact h.writeDc (clearFlag_and_eq_zero · _)
  | leftToRight | autoscroll => exact h.writeDm (setFlag_and_eq_zero · (by decide))
  | rightToLeft | noAutoscroll => exact h.writeDm (clearFlag_and_eq_zero · _)
  | _ => exact h

/-- Settles O45: the registers are written by `registers` alone, which keeps the fields. -/
theorem stepKeepsFlagsInFields : Obligations.StepKeepsFlagsInFields := by
  intro s t h hstep
  exact step_keeps h hstep (fun _ _ h => h) (fun _ _ h => h) (fun _ h => h) (fun i _ h => h.registers i) fun _ _ h => h

/-! ## Lines and pins (R36, R122) -/

/-- Appending pin events to the trace and applying them to the lines keeps the two together. -/
theorem LinesFollowPins.drivePins {s : State} (h : LinesFollowPins s) (ps : List PinEvent) :
    LinesFollowPins (drivePins ps s) := by
  obtain ⟨hwf, hlevel⟩ := h
  refine ⟨lineWf_applyPins hwf ps, fun p => ?_⟩
  rw [drivePins_line, drivePins_pins, lineLevel_applyPins, lastLevel_append, hlevel]

theorem LinesFollowPins.registers {s : State} (h : LinesFollowPins s) (i : Instr) : LinesFollowPins (registers i s) := by
  simpa [LinesFollowPins] using h

/-- Settles O46: pins and lines are written by `drivePins` alone. -/
theorem stepKeepsLinesFollowingPins : Obligations.StepKeepsLinesFollowingPins := by
  intro s t h hstep
  exact step_keeps h hstep (fun _ _ h => h) (fun _ _ h => h) (fun _ h => h.drivePins _) (fun i _ h => h.registers i)
    fun _ _ h => h.drivePins _

/-! ## The read/write line (R34, D19, D28) -/

theorem readWriteLow_iff {s : State} : ReadWriteLow s ↔ drivesReadWriteHigh s.cfg s.pins = false :=
  drivesReadWriteHigh_eq_false.symm

theorem drivesReadWriteHigh_append {cfg : Config} {ps qs : List PinEvent} (hp : drivesReadWriteHigh cfg ps = false)
    (hq : drivesReadWriteHigh cfg qs = false) : drivesReadWriteHigh cfg (ps ++ qs) = false := by
  rw [drivesReadWriteHigh_eq_false] at *
  intro p hrw hrs he hd hmem
  exact (List.mem_append.1 hmem).elim (hp p hrw hrs he hd) (hq p hrw hrs he hd)

/-- The lowering of an event, on either transport: the direct-pin one by its shape, the other by its limits. -/
theorem drivesReadWriteHigh_lower (cfg : Config) (ev : TransportEvent) :
    drivesReadWriteHigh cfg (lower cfg ev) = false := by
  unfold lower
  split
  · exact drivesReadWriteHigh_lowerDirect cfg ev
  · have hlimits := withinLimits_lowerOther cfg ev
    simp only [withinLimits, Bool.and_eq_true, Bool.not_eq_true'] at hlimits
    exact hlimits.1

theorem drivesReadWriteHigh_flatMap_lower (cfg : Config) (evs : List TransportEvent) :
    drivesReadWriteHigh cfg (evs.flatMap (lower cfg)) = false := by
  induction evs with
  | nil => simp [drivesReadWriteHigh_eq_false]
  | cons ev evs ih => exact drivesReadWriteHigh_append (drivesReadWriteHigh_lower cfg ev) ih

/-- The bare pulse, on either transport. -/
theorem drivesReadWriteHigh_lowerPulse (cfg : Config) : drivesReadWriteHigh cfg (lowerPulse cfg) = false := by
  unfold lowerPulse
  split
  · exact drivesReadWriteHigh_directPulse cfg
  · split
    case isTrue hlimits => exact hlimits.2
    case isFalse => exact drivesReadWriteHigh_directPulse cfg

theorem ReadWriteLow.drivePins {s : State} {ps : List PinEvent} (h : ReadWriteLow s)
    (hps : drivesReadWriteHigh s.cfg ps = false) : ReadWriteLow (drivePins ps s) :=
  readWriteLow_iff.2 (drivesReadWriteHigh_append (readWriteLow_iff.1 h) hps)

theorem ReadWriteLow.registers {s : State} (h : ReadWriteLow s) (i : Instr) : ReadWriteLow (registers i s) := by
  simpa [ReadWriteLow] using h

/-- Settles O48: every pin event is of the lowering of an event or of a bare pulse, and neither drives the line to 1. -/
theorem stepKeepsReadWriteLow : Obligations.StepKeepsReadWriteLow := by
  intro s t h hstep
  exact step_keeps h hstep (fun _ _ h => h) (fun _ _ h => h)
    (fun u h => h.drivePins (drivesReadWriteHigh_lowerPulse u.cfg)) (fun i _ h => h.registers i)
    fun evs u h => h.drivePins (drivesReadWriteHigh_flatMap_lower u.cfg evs)

/-! ## Reset (R38, R230) -/

/-- Settles O7: each clause is a field of the reset state. -/
theorem resetLeavesBlockUninitialisedAndSilent : Obligations.ResetLeavesBlockUninitialisedAndSilent :=
  ⟨fun _ => ⟨rfl, rfl, rfl, fun _ => rfl, rfl, rfl⟩, rfl⟩

/-- A trace without events keeps the laws of R187. -/
theorem traceLaws_nil (fb : Bool) : TraceLaws fb [] where
  write8AfterSetMode := by simp
  write8ThenNibbles := by simp
  write4Placed := by simp

/-- Settles O44: at reset INIT is 0, no line is driven, both traces and the host's list are empty, and no fault is
recorded. -/
theorem invariantsHoldAtReset : Obligations.InvariantsHoldAtReset := by
  intro cfg
  refine ⟨?flags, ⟨rfl, fun _ => rfl⟩, ?enable, ?readWrite, ⟨rfl, ?port⟩, ⟨?ops, traceLaws_nil _⟩, trivial⟩
  case flags => exact fun hinit => nomatch hinit
  case enable => exact fun _ _ hlevel => nomatch hlevel
  case readWrite => exact fun _ _ _ _ _ => List.not_mem_nil
  case port => exact List.not_mem_nil
  case ops => exact fun _ hmem => nomatch hmem

end Sys2Proof.Machine
end

section
/-! PROOFS. The registers that reset leaves unspecified cannot be observed before begin writes them (R38, O53). -/

namespace Sys2Proof.Machine

/-- `s` with the registers that reset leaves unspecified taken from `u` (R38, log 6). -/
def State.withUnspecifiedOf (s u : State) : State :=
  { s with df := u.df, dc := u.dc, dm := u.dm, numlines := u.numlines, curline := u.curline }

theorem Alike.refl (s : State) : Alike s s := ⟨rfl, rfl, rfl, rfl, rfl, rfl, rfl, rfl, fun _ => rfl⟩

theorem AlikeOutcome.refl (o : Host.Outcome State Fault Refusal) : AlikeOutcome o o := by
  cases o with
  | next s => exact Alike.refl s
  | fault r => rfl
  | refused r => rfl

theorem alike_withUnspecifiedOf {s : State} (h : s.init = false) (u : State) : Alike s (s.withUnspecifiedOf u) :=
  ⟨rfl, rfl, rfl, rfl, rfl, rfl, rfl, rfl, fun hi => by simp [h] at hi⟩

/-- The inversion of `Alike`: equal, or before begin and different in the unspecified registers alone. -/
theorem Alike.cases {s u : State} (h : Alike s u) : u = s ∨ (s.init = false ∧ u = s.withUnspecifiedOf u) := by
  cases hi : s.init with
  | true => exact .inl (h.registers hi)
  | false =>
    refine .inr ⟨rfl, ?_⟩
    obtain ⟨hcfg, hinit, hfault, hline, htrace, hpins, hanswer, hport, _⟩ := h
    cases u
    simp only [State.withUnspecifiedOf, State.mk.injEq, true_and]
    exact ⟨hcfg, hinit, hfault, hline, htrace, hpins, hanswer, hport⟩

/-! ## One instruction before begin -/

/-- Before begin, what an instruction raises does not depend on the unspecified registers: setCursor's row check comes
after its `INIT` check (R205). -/
theorem raises_withUnspecifiedOf {s : State} (h : s.init = false) (i : Instr) (u : State) :
    raises i (s.withUnspecifiedOf u) = raises i s := by
  cases i with
  | setCursor col row => simp [raises_setCursor, State.withUnspecifiedOf, h]
  | _ => rfl

/-- Before begin, an instruction that raises nothing is begin or no operation of the input port (R202). -/
theorem begin_or_not_inputOp_of_raises {i : Instr} {s : State} (h : s.init = false) (hr : raises i s = none) :
    (∃ cols rows charsize, i = .begin cols rows charsize) ∨ i.isInputOp = false := by
  cases hi : i.isInputOp with
  | false => exact .inr rfl
  | true =>
    cases i with
    | begin cols rows charsize => exact .inl ⟨cols, rows, charsize, rfl⟩
    | _ => simp [raises, h, hi] at hr

/-- begin writes every unspecified register, to a value that depends on none of them (R28, R131, R132, R136). -/
theorem begin_withUnspecifiedOf (cols rows charsize : Byte) (s u : State) :
    emitAll (events (.begin cols rows charsize) (s.withUnspecifiedOf u))
        (registers (.begin cols rows charsize) (s.withUnspecifiedOf u)) =
      emitAll (events (.begin cols rows charsize) s) (registers (.begin cols rows charsize) s) := rfl

/-- An internal call or a transfer neither reads nor writes the unspecified registers. -/
theorem not_inputOp_withUnspecifiedOf {i : Instr} (h : i.isInputOp = false) (s u : State) :
    emitAll (events i (s.withUnspecifiedOf u)) (registers i (s.withUnspecifiedOf u)) =
      (emitAll (events i s) (registers i s)).withUnspecifiedOf u := by
  cases i <;> cases h <;> rfl

theorem registers_init_of_not_inputOp {i : Instr} (h : i.isInputOp = false) (s : State) :
    (registers i s).init = s.init := by
  cases i <;> cases h <;> rfl

theorem result_of_raises {i : Instr} {s : State} {r : FaultReason} (h : raises i s = some r) :
    result i s = raise r s := by
  rw [result, h]

theorem result_of_raises_none {i : Instr} {s : State} (h : raises i s = none) (hp : i ≠ .pulseEnable) :
    result i s = emitAll (events i s) (registers i s) := by
  simp only [result, h, if_neg hp]

/-- One instruction on alike states: the same fault, or the same events and registers alike again. -/
theorem Alike.result {s u : State} (h : Alike s u) (i : Instr) : Alike (result i s) (result i u) := by
  obtain rfl | ⟨hi, hu⟩ := h.cases
  · exact .refl _
  rw [hu]
  have hru := raises_withUnspecifiedOf hi i u
  obtain ⟨r, hr, he⟩ | ⟨_, rfl, _⟩ | ⟨hr, hp, he⟩ := result_cases i s
  · rw [he, result_of_raises (hru.trans hr)]
    exact alike_withUnspecifiedOf (s := raise r s) hi u
  · exact alike_withUnspecifiedOf (s := pulseEnable s) hi u
  · rw [he, result_of_raises_none (hru.trans hr) hp]
    obtain ⟨cols, rows, charsize, rfl⟩ | hn := begin_or_not_inputOp_of_raises hi hr
    · rw [begin_withUnspecifiedOf]
      exact .refl _
    · rw [not_inputOp_withUnspecifiedOf hn]
      exact alike_withUnspecifiedOf (s := emitAll _ _) ((registers_init_of_not_inputOp hn s).trans hi) u

/-! ## One step -/

theorem Alike.dropRequest {s u : State} (h : Alike s u) (rest : List Request) :
    Alike { s with port := rest } { u with port := rest } :=
  { h with port := rfl, registers := fun hi => by rw [h.registers hi] }

/-- What `exec` answers on alike states (R207 when a fault stands). -/
theorem Alike.exec {s u : State} (h : Alike s u) (i : Instr) : AlikeOutcome (exec i s) (exec i u) := by
  cases hf : s.fault with
  | some r =>
    rw [exec_of_fault i s r hf, exec_of_fault i u r (h.fault.trans hf)]
    rfl
  | none =>
    rw [exec_eq i s hf, exec_eq i u (h.fault.trans hf)]
    exact h.result i

/-! The answers of `step`: `stepRunsDecodedRequest` is the case of a request that decodes. -/

theorem step_of_fault {s : State} {r : FaultReason} (hf : s.fault = some r) : step s = .fault (.noStep r) := by
  simp only [step, hf]

theorem step_of_port_nil {s : State} (hf : s.fault = none) (hp : s.port = []) : step s = .next s := by
  simp only [step, hf, takeRequest, hp]

theorem step_of_decode_error {s : State} {q : Request} {rest : List Request} {e : DecodeError} (hf : s.fault = none)
    (hp : s.port = q :: rest) (hq : q.decode = .error e) : step s = .refused (.undecodable e) := by
  simp only [step, hf, takeRequest_cons hp, hq]

/-- Settles O53: alike states hold the same fault and the same list, so a step of both stops alike, is idle on both,
or runs one instruction on states alike again. -/
theorem unspecifiedRegistersAreUnobservable : Obligations.UnspecifiedRegistersAreUnobservable := by
  intro s u h
  cases hf : s.fault with
  | some r =>
    rw [step_of_fault hf, step_of_fault (h.fault.trans hf)]
    rfl
  | none =>
    have hfu := h.fault.trans hf
    cases hp : s.port with
    | nil =>
      rw [step_of_port_nil hf hp, step_of_port_nil hfu (h.port.trans hp)]
      exact h
    | cons q rest =>
      have hpu := h.port.trans hp
      cases hq : q.decode with
      | error e =>
        rw [step_of_decode_error hf hp hq, step_of_decode_error hfu hpu hq]
        rfl
      | ok i =>
        rw [stepRunsDecodedRequest s q rest i hf hp hq, stepRunsDecodedRequest u q rest i hfu hpu hq]
        exact (h.dropRequest rest).exec i

end Sys2Proof.Machine
end

section
/-! PROOFS. The traces through a step: nothing is reordered, merged or dropped (R60, O43). -/

namespace Sys2Proof.Machine

/-- The two traces of `s` are the beginnings of those of `t` (R60, log 9). -/
def ExtendsTraces (s t : State) : Prop := s.trace <+: t.trace ∧ s.pins <+: t.pins

theorem ExtendsTraces.refl (s : State) : ExtendsTraces s s := ⟨List.prefix_refl _, List.prefix_refl _⟩

theorem ExtendsTraces.drivePins {s u : State} (h : ExtendsTraces s u) (ps : List PinEvent) :
    ExtendsTraces s (drivePins ps u) := by
  obtain ⟨htrace, hpins⟩ := h
  exact ⟨htrace, hpins.trans (List.prefix_append _ _)⟩

theorem ExtendsTraces.emitAll {s u : State} (h : ExtendsTraces s u) (evs : List TransportEvent) :
    ExtendsTraces s (emitAll evs u) := by
  obtain ⟨htrace, hpins⟩ := h
  exact ⟨htrace.trans (List.prefix_append _ _), hpins.trans (List.prefix_append _ _)⟩

theorem ExtendsTraces.registers {s u : State} (h : ExtendsTraces s u) (i : Instr) :
    ExtendsTraces s (registers i u) := by
  simpa [ExtendsTraces] using h

/-- Settles O43: the traces are written by `emitAll` and the bare pulse alone, and both append. -/
theorem stepOnlyAppendsToTraces : Obligations.StepOnlyAppendsToTraces := by
  intro s t hstep
  obtain ⟨⟨evs, htrace⟩, ps, hpins⟩ := step_keeps (P := ExtendsTraces s) (.refl s) hstep (fun _ _ h => h)
    (fun _ _ h => h) (fun _ h => h.drivePins _) (fun i _ h => h.registers i) (fun evs _ h => h.emitAll evs)
  exact ⟨⟨evs, htrace.symm⟩, ps, hpins.symm⟩

end Sys2Proof.Machine
end

section
/-! PROOFS. The decoder and the encoder (R70 to R81): what is encoded decodes back (O1), what decodes re-encodes to
itself (O2), which requests decode (O3), samples (O6), and the step on a request that decodes to nothing (O9). -/

namespace Sys2Proof.Machine

/-! ## Bits -/

@[simp] theorem getElem_flagBit (v : Bool) (k j : Nat) (h : j < 8) : (flagBit v k)[j] = (v && decide (j = k)) := by
  cases v with
  | true => simp [flagBit, BitVec.getElem_shiftLeft, BitVec.getElem_one]; grind
  | false => simp [flagBit]

theorem byte_eq_of_bits {b c : Byte} (h7 : c.getLsbD 7 = b.getLsbD 7) (h6 : c.getLsbD 6 = b.getLsbD 6)
    (h5 : c.getLsbD 5 = b.getLsbD 5) (h4 : c.getLsbD 4 = b.getLsbD 4) (h3 : c.getLsbD 3 = b.getLsbD 3)
    (h2 : c.getLsbD 2 = b.getLsbD 2) (h1 : c.getLsbD 1 = b.getLsbD 1) (h0 : c.getLsbD 0 = b.getLsbD 0) : c = b := by
  refine BitVec.eq_of_getLsbD_eq fun k hk => ?_
  interval_cases k <;> assumption

/-! ## The transfer word (R34, R71) -/

theorem transferWord_level (m : Mode) (b : Byte) : (transferWord m b).getLsbD 8 = m.level := by
  rw [transferWord, BitVec.getLsbD_append, if_neg (by decide)]
  simp

theorem transferWord_byte (m : Mode) (b : Byte) : (transferWord m b).extractLsb' 0 8 = b := by
  refine BitVec.eq_of_getLsbD_eq fun k hk => ?_
  rw [BitVec.getLsbD_extractLsb', transferWord, BitVec.getLsbD_append]
  simp [hk]

theorem decodeWord_transferWord (m : Mode) (b : Byte) : decodeWord (transferWord m b) = decodeTransfer m b := by
  rw [decodeWord, transferWord_level, transferWord_byte]
  cases m <;> rfl

/-- Every nine-bit word is the word of a transfer: its bit 8 the mode, its bits 7 to 0 the byte. -/
theorem exists_transferWord (w : TransferWord) : ∃ m b, w = transferWord m b := by
  refine ⟨if w.getLsbD 8 then .data else .command, w.extractLsb' 0 8, BitVec.eq_of_getLsbD_eq fun k hk => ?_⟩
  have hlevel : (if w.getLsbD 8 then Mode.data else .command).level = w.getLsbD 8 := by
    cases w.getLsbD 8 <;> rfl
  rw [transferWord, hlevel, BitVec.getLsbD_append]
  by_cases h : k < 8
  · simp [h]
  · obtain rfl : k = 8 := by omega
    simp

theorem decode_word_toNat (w : TransferWord) : (Request.word w.toNat).decode = decodeWord w := by
  rw [Request.decode, if_pos w.isLt, BitVec.ofNat_toNat, BitVec.setWidth_eq]

/-! ## What is encoded decodes back -/

theorem decodeCommand_setCgramByte (a : Addr6) : decodeCommand (setCgramByte a) = .ok (.cmdSetCgramAddr a) := by
  have hfield : (setCgramByte a).extractLsb' 0 6 = a := by
    refine BitVec.eq_of_getLsbD_eq fun k hk => ?_
    interval_cases k <;> simp [setCgramByte]
  rw [decodeCommand, hfield]
  simp [setCgramByte]

theorem decodeCommand_setDdramByte (a : Addr7) : decodeCommand (setDdramByte a) = .ok (.cmdSetDdramAddr a) := by
  have hfield : (setDdramByte a).extractLsb' 0 7 = a := by
    refine BitVec.eq_of_getLsbD_eq fun k hk => ?_
    interval_cases k <;> simp [setDdramByte]
  rw [decodeCommand, hfield]
  simp [setDdramByte]

/-- A word that an instruction has decodes to the instruction; a class with at most five free bits is checked at each
of its bytes. -/
theorem decodeWord_of_encodeWord {i : Instr} {w : TransferWord} (h : encodeWord i = some w) :
    decodeWord w = .ok i := by
  cases i <;> cases h <;> rw [decodeWord_transferWord, decodeTransfer]
  case cmdClear => decide
  case cmdReturnHome x => revert x; decide
  case cmdEntryMode id sh => revert id sh; decide
  case cmdDisplayControl d c b => revert d c b; decide
  case cmdShift sc rl x => revert sc rl x; decide
  case cmdFunctionSet dl n f x => revert dl n f x; decide
  case cmdSetCgramAddr a => exact decodeCommand_setCgramByte a
  case cmdSetDdramAddr a => exact decodeCommand_setDdramByte a

theorem encode_of_encodeWord {i : Instr} {w : TransferWord} (h : encodeWord i = some w) :
    encode i = .word w.toNat := by
  rw [encode, h]

theorem encode_of_encodeWord_none {i : Instr} (h : encodeWord i = none) :
    encode i = if i.isInputOp then .op i else .call i := by
  rw [encode, h]

/-- An instruction without a word is an operation of the input port or an internal call (R70, D2). -/
theorem interface_of_encodeWord_none {i : Instr} (h : encodeWord i = none) :
    i.isInputOp = true ∨ i.isInternalCall = true := by
  cases i with
  | cmdClear | cmdReturnHome | cmdEntryMode | cmdDisplayControl => cases h
  | cmdShift | cmdFunctionSet | cmdSetCgramAddr | cmdSetDdramAddr | dataByte => cases h
  | send | setMode | write4bits | write8bits | fourbitmode | pulseEnable => exact .inr rfl
  | _ => exact .inl rfl

/-- Settles O1: a transfer by its word, an operation or an internal call by its name. -/
theorem decodeOfEncodeIsIdentity : Obligations.DecodeOfEncodeIsIdentity := by
  intro i
  cases hw : encodeWord i with
  | some w => rw [encode_of_encodeWord hw, decode_word_toNat, decodeWord_of_encodeWord hw]
  | none =>
    rw [encode_of_encodeWord_none hw]
    by_cases hop : i.isInputOp = true
    · rw [if_pos hop, Request.decode, if_pos hop]
    · have hcall := (interface_of_encodeWord_none hw).resolve_left hop
      rw [if_neg hop, Request.decode, if_pos hcall]

/-! ## What decodes re-encodes to itself -/


/-- In each branch of `decodeCommand` the bits found on the way and the bits read as fields are all the bits of the
byte (R72 to R80). -/
theorem encodeWord_of_decodeCommand {b : Byte} {i : Instr} (h : decodeCommand b = .ok i) :
    encodeWord i = some (transferWord .command b) := by
  have hword {c : Byte} (hc : c = b) : some (transferWord .command c) = some (transferWord .command b) := by rw [hc]
  unfold decodeCommand at h
  split_ifs at h with h7 h6 h5 h4 h3 h2 h1 h0 <;> cases h <;> refine hword (byte_eq_of_bits ?_ ?_ ?_ ?_ ?_ ?_ ?_ ?_)
  all_goals simp_all [setDdramByte, setCgramByte, functionSetClassByte, shiftByte, displayControlByte, entryModeByte,
    returnHomeByte, clearByte]

theorem encodeWord_of_decodeWord {w : TransferWord} {i : Instr} (h : decodeWord w = .ok i) : encodeWord i = some w := by
  obtain ⟨m, b, rfl⟩ := exists_transferWord w
  rw [decodeWord_transferWord] at h
  cases m with
  | command => exact encodeWord_of_decodeCommand h
  | data => cases h; rfl

/-- Settles O2: the word decodes as a transfer of nine bits, and each class and the data byte keeps every bit. -/
theorem decodedWordReencodesToItself : Obligations.DecodedWordReencodesToItself := by
  intro w i h
  rw [Request.decode] at h
  split at h
  case isTrue hw => rw [encode_of_encodeWord (encodeWord_of_decodeWord h), BitVec.toNat_ofNat, Nat.mod_eq_of_lt hw]
  case isFalse => cases h

/-! ## Which requests decode -/

/-- A byte with no class has no 1 bit (R72). -/
theorem eq_zero_of_decodeCommand_error {b : Byte} {e : DecodeError} (h : decodeCommand b = .error e) : b = 0 := by
  unfold decodeCommand at h
  split_ifs at h
  apply byte_eq_of_bits <;> simp_all

theorem eq_zero_of_decodeWord_error {w : TransferWord} {e : DecodeError} (h : decodeWord w = .error e) : w = 0 := by
  obtain ⟨m, b, rfl⟩ := exists_transferWord w
  rw [decodeWord_transferWord] at h
  cases m with
  | command => rw [eq_zero_of_decodeCommand_error h]; rfl
  | data => cases h

theorem decodes_word_iff (w : Nat) : (∃ i, (Request.word w).decode = .ok i) ↔ 0 < w ∧ w < 512 := by
  rw [Request.decode]
  constructor
  · rintro ⟨i, h⟩
    split at h
    case isTrue hw =>
      refine ⟨Nat.pos_of_ne_zero ?_, hw⟩
      rintro rfl
      cases h
    case isFalse => cases h
  · rintro ⟨hpos, hw⟩
    rw [if_pos hw]
    cases hd : decodeWord (BitVec.ofNat 9 w) with
    | ok i => exact ⟨i, rfl⟩
    | error e =>
      have hzero := congrArg BitVec.toNat (eq_zero_of_decodeWord_error hd)
      simp [Nat.mod_eq_of_lt hw] at hzero
      omega

/-- Settles O3: on a named interface by its list, on the transfers by the word `0` alone having no class. -/
theorem decodeAcceptsExactlyWellFormedRequests : Obligations.DecodeAcceptsExactlyWellFormedRequests := by
  intro q
  cases q with
  | op i => cases h : i.isInputOp <;> simp [Request.wellFormed, Request.decode, h]
  | call i => cases h : i.isInternalCall <;> simp [Request.wellFormed, Request.decode, h]
  | word w => rw [decodes_word_iff, Request.wellFormed, decide_eq_true_iff]

/-- Settles O6: each byte is written from its format, and its bits are evaluated. -/
theorem sampleWordsDecode : Obligations.SampleWordsDecode :=
  ⟨rfl, rfl, rfl, rfl, rfl, rfl, rfl, rfl, rfl, rfl⟩

/-- Settles O9: what is not well formed does not decode (O3), and the step refuses with the decoder's error. -/
theorem stepRefusesIllFormedRequest : Obligations.StepRefusesIllFormedRequest := by
  intro s q rest hf hp hq
  cases hd : q.decode with
  | error e => exact ⟨e, rfl, step_of_decode_error hf hp hd⟩
  | ok i => 
    have hwf := (decodeAcceptsExactlyWellFormedRequests q).2 ⟨i, hd⟩
    simp [hq] at hwf

end Sys2Proof.Machine
end

section
/-! PROOFS. Every instruction answers (R92, O39), and the transfers as instructions (R71 to R81): a command class or a
data byte sends its own byte (O18, O19). -/

namespace Sys2Proof.Machine

/-- Settles O39: without a fault `exec` answers the state `result`. -/
theorem everyInstructionAnswersNextState : Obligations.EveryInstructionAnswersNextState := fun i s h =>
  ⟨result i s, exec_eq i s h⟩

/-- What an instruction that only sends one byte does (R186). -/
theorem sends_of_result {i : Instr} {s : State} {m : Mode} {b : Byte} (h : s.fault = none)
    (hr : result i s = emitAll (transferEvents s.cfg m b) s) :
    ∃ t, exec i s = .next t ∧ SameRegisters s t ∧ Emits s t (transferEvents s.cfg m b) :=
  ⟨_, (exec_eq i s h).trans (by rw [hr]), sameRegisters_emitAll _ s, emits_emitAll _ s⟩

/-- Settles O19: the meaning of a data byte is the send of that byte. -/
theorem dataByteIsSentUnchanged : Obligations.DataByteIsSentUnchanged := fun _ _ h => sends_of_result h rfl

/-! ## The bytes of the command classes as sums (R73 to R80): the fields do not overlap -/

theorem returnHomeByte_eq_ofNat (x : BitVec 1) : returnHomeByte x = BitVec.ofNat 8 (2 + x.toNat) := by
  revert x; decide

theorem entryModeByte_eq_ofNat (id sh : Bool) :
    entryModeByte id sh = BitVec.ofNat 8 (4 + 2 * id.toNat + sh.toNat) := by
  revert id sh; decide

theorem displayControlByte_eq_ofNat (d c k : Bool) :
    displayControlByte d c k = BitVec.ofNat 8 (8 + 4 * d.toNat + 2 * c.toNat + k.toNat) := by
  revert d c k; decide

theorem shiftByte_eq_ofNat (sc rl : Bool) (x : BitVec 2) :
    shiftByte sc rl x = BitVec.ofNat 8 (16 + 8 * sc.toNat + 4 * rl.toNat + x.toNat) := by
  revert sc rl x; decide

theorem functionSetClassByte_eq_ofNat (dl n f : Bool) (x : BitVec 2) :
    functionSetClassByte dl n f x =
      BitVec.ofNat 8 (32 + 16 * dl.toNat + 8 * n.toNat + 4 * f.toNat + x.toNat) := by
  revert dl n f x; decide

theorem setCgramByte_eq_ofNat (a : Addr6) : setCgramByte a = BitVec.ofNat 8 (64 + a.toNat) := by
  have hdisjoint : (0x40 : Byte) &&& a.zeroExtend 8 = 0 := by
    apply byte_eq_of_bits <;> simp
  rw [setCgramByte, ← BitVec.add_eq_or_of_and_eq_zero _ _ hdisjoint, BitVec.ofNat_add]
  simp

theorem setDdramByte_eq_ofNat (a : Addr7) : setDdramByte a = BitVec.ofNat 8 (128 + a.toNat) := by
  have hdisjoint : (0x80 : Byte) &&& a.zeroExtend 8 = 0 := by
    apply byte_eq_of_bits <;> simp
  rw [setDdramByte, ← BitVec.add_eq_or_of_and_eq_zero _ _ hdisjoint, BitVec.ofNat_add]
  simp

/-- Settles O18: each class runs as the send of its byte, which is the sum of its fields. -/
theorem commandClassesSendTheirBytes : Obligations.CommandClassesSendTheirBytes := by
  rintro s h i b (⟨rfl, rfl⟩ | ⟨x, rfl, rfl⟩ | ⟨id, sh, rfl, rfl⟩ | ⟨d, c, k, rfl, rfl⟩ |
    ⟨sc, rl, x, rfl, rfl⟩ | ⟨dl, n, f, x, rfl, rfl⟩ | ⟨a, rfl, rfl⟩ | ⟨a, rfl, rfl⟩)
  · exact sends_of_result h rfl
  · rw [← returnHomeByte_eq_ofNat]; exact sends_of_result h rfl
  · rw [← entryModeByte_eq_ofNat]; exact sends_of_result h rfl
  · rw [← displayControlByte_eq_ofNat]; exact sends_of_result h rfl
  · rw [← shiftByte_eq_ofNat]; exact sends_of_result h rfl
  · rw [← functionSetClassByte_eq_ofNat]; exact sends_of_result h rfl
  · rw [← setCgramByte_eq_ofNat]; exact sends_of_result h rfl
  · rw [← setDdramByte_eq_ofNat]; exact sends_of_result h rfl

end Sys2Proof.Machine
end

section
/-! PROOFS. The wiring changes the nibbles of a transfer, never its mode or its byte (R93): for one operation (O55) and
along a run (O60). -/

namespace Sys2Proof.Machine

/-! ## The trace without its nibbles -/

@[simp] theorem withoutNibbles_nil : withoutNibbles [] = [] := rfl
@[simp] theorem withoutNibbles_setMode (m : Mode) (evs : List TransportEvent) :
    withoutNibbles (.setMode m :: evs) = .setMode m :: withoutNibbles evs := rfl
@[simp] theorem withoutNibbles_write4 (n : Nibble) (evs : List TransportEvent) :
    withoutNibbles (.write4 n :: evs) = withoutNibbles evs := rfl
@[simp] theorem withoutNibbles_write8 (b : Byte) (evs : List TransportEvent) :
    withoutNibbles (.write8 b :: evs) = .write8 b :: withoutNibbles evs := rfl
@[simp] theorem withoutNibbles_delay (t : Nat) (evs : List TransportEvent) :
    withoutNibbles (.delay t :: evs) = .delay t :: withoutNibbles evs := rfl
@[simp] theorem withoutNibbles_append (evs evs' : List TransportEvent) :
    withoutNibbles (evs ++ evs') = withoutNibbles evs ++ withoutNibbles evs' := List.filter_append ..

/-- A transfer without its nibbles is its mode and its byte, on either wiring. -/
@[simp] theorem withoutNibbles_transferEvents (cfg : Config) (m : Mode) (b : Byte) :
    withoutNibbles (transferEvents cfg m b) = [.setMode m, .write8 b] := by
  unfold transferEvents
  split <;> simp

theorem withoutNibbles_transferEvents_tail (cfg : Config) (m : Mode) (b : Byte) :
    withoutNibbles (transferEvents cfg m b).tail = [.write8 b] := by
  unfold transferEvents
  split <;> simp

theorem withoutNibbles_flatMap_transferEvents (cfg : Config) (m : Mode) (bs : List Byte) :
    withoutNibbles (bs.flatMap (transferEvents cfg m)) = bs.flatMap fun b => [.setMode m, .write8 b] := by
  induction bs with
  | nil => rfl
  | cons b bs ih => simp [ih]

/-! ## Two blocks that differ in the wiring -/

/-- Alike, but for the wiring, in what an operation other than begin reads and in the registers it may write. -/
structure ApartInWiring (s u : State) : Prop where
  cfg : ∃ w, u.cfg = { s.cfg with wiring := w }
  dc : u.dc = s.dc
  dm : u.dm = s.dm
  init : u.init = s.init
  curline : u.curline = s.curline
  numlines : u.numlines = s.numlines

/-- The same block on another wiring. -/
def State.withWiring (s : State) (w : Wiring) : State := { s with cfg := { s.cfg with wiring := w } }

theorem apartInWiring_withWiring (s : State) (w : Wiring) : ApartInWiring s (s.withWiring w) :=
  ⟨⟨w, rfl⟩, rfl, rfl, rfl, rfl, rfl⟩

theorem SameBytes.apartInWiring {a b : List TransportEvent} {s u : State} (h : SameBytes a b s u) :
    ApartInWiring s u :=
  ⟨h.cfg, h.dc, h.dm, h.init.2.trans h.init.1.symm, h.curline, h.numlines⟩

/-- The guards do not read the wiring (R201 to R205). -/
theorem ApartInWiring.raises {s u : State} (h : ApartInWiring s u) (i : Instr) : raises i u = raises i s := by
  obtain ⟨⟨w, hcfg⟩, _, _, hinit, _, hnumlines⟩ := h
  cases i with
  | setCursor col row => simp only [raises_setCursor, hcfg, hinit, hnumlines]
  | _ => simp only [Machine.raises, hinit]

/-- Of the registers only `DF`, which begin writes from the wiring (R131), can tell the blocks apart. -/
theorem ApartInWiring.registers {s u : State} (h : ApartInWiring s u) (i : Instr) :
    ApartInWiring (registers i s) (registers i u) := by
  cases i with
  | begin => exact ⟨h.cfg, rfl, rfl, rfl, rfl, rfl⟩
  | display | cursor | blink => exact { h with dc := congrArg (setFlag · _) h.dc }
  | noDisplay | noCursor | noBlink => exact { h with dc := congrArg (clearFlag · _) h.dc }
  | leftToRight | autoscroll => exact { h with dm := congrArg (setFlag · _) h.dm }
  | rightToLeft | noAutoscroll => exact { h with dm := congrArg (clearFlag · _) h.dm }
  | fourbitmode => exact ⟨h.cfg, h.dc, h.dm, h.init, h.curline, h.numlines⟩
  | _ => exact h

/-- "It changes the transfer …, never the byte" (R93): begin, whose first bytes depend on the wiring (R134, R135), is
left out. -/
theorem ApartInWiring.withoutNibbles_events {s u : State} (h : ApartInWiring s u) {i : Instr}
    (hb : ∀ a b c, i ≠ .begin a b c) : withoutNibbles (events i u) = withoutNibbles (events i s) := by
  have hdc := (h.registers i).dc
  have hdm := (h.registers i).dm
  obtain ⟨⟨w, hcfg⟩, _, _, _, _, hnumlines⟩ := h
  cases i with
  | begin a b c => exact absurd rfl (hb a b c)
  | clear => simp [events, hcfg]
  | createChar index pattern => simp [events, withoutNibbles_flatMap_transferEvents]
  | display | noDisplay | cursor | noCursor | blink | noBlink => simp [events, hdc]
  | leftToRight | rightToLeft | autoscroll | noAutoscroll => simp [events, hdm]
  | setCursor col row =>
    rw [events_setCursor, events_setCursor, hcfg, hnumlines]
    cases rowBaseAt s.cfg.rowBase (clampRow s.cfg.rowClamp s.numlines row) <;> simp
  | setMode | write4bits | fourbitmode | pulseEnable => rfl
  | write8bits b => simp [events, withoutNibbles_transferEvents_tail]
  | _ => simp [events]

/-! ## One operation on two wirings -/

theorem filter_eq_withoutNibbles {f : TransportEvent → Bool} (hmode : ∀ m, f (.setMode m) = true)
    (hnibble : ∀ n, f (.write4 n) = false) (hbyte : ∀ b, f (.write8 b) = true) (hdelay : ∀ t, f (.delay t) = true)
    (evs : List TransportEvent) : evs.filter f = withoutNibbles evs := by
  unfold withoutNibbles
  congr
  funext e
  cases e <;> simp [hmode, hnibble, hbyte, hdelay]

/-- An operation other than begin writes no register from the configuration. -/
theorem sameRegisters_registers_withCfg {i : Instr} (hi : i.isInputOp = true) (hb : ∀ a b c, i ≠ .begin a b c)
    (s : State) (cfg : Config) :
    SameRegisters { registers i s with cfg := cfg } (registers i { s with cfg := cfg }) := by
  cases i with
  | begin a b c => exact absurd rfl (hb a b c)
  | fourbitmode => cases hi
  | _ => exact ⟨rfl, rfl, rfl, rfl, rfl, rfl, rfl, rfl, rfl, rfl⟩

/-- Settles O55: both blocks raise the same fault, or write the same registers and emit events that differ in nibbles
alone. -/
theorem wiringChangesTransferNotBytes : Obligations.WiringChangesTransferNotBytes := by
  intro i s t w hi hb ht
  obtain ⟨hf, rfl⟩ := exec_next ht
  have hapart := apartInWiring_withWiring s w
  have hraises := hapart.raises i
  have hexec : exec i (s.withWiring w) = .next (result i (s.withWiring w)) := exec_eq i (s.withWiring w) hf
  obtain ⟨r, hr, he⟩ | ⟨_, rfl, _⟩ | ⟨hr, hp, he⟩ := result_cases i s
  · rw [result_of_raises (hraises.trans hr)] at hexec
    rw [he]
    exact ⟨_, [], [], hexec, (List.append_nil _).symm, (List.append_nil _).symm, rfl,
      ⟨rfl, rfl, rfl, rfl, rfl, rfl, rfl, rfl, rfl, rfl⟩⟩
  · cases hi
  · rw [result_of_raises_none (hraises.trans hr) hp] at hexec
    rw [he]
    refine ⟨_, events i s, events i (s.withWiring w), hexec, ?_, ?_, ?_, ?_⟩
    · rw [emitAll_trace, registers_trace]
    · rw [emitAll_trace, registers_trace]; rfl
    · rw [filter_eq_withoutNibbles, filter_eq_withoutNibbles, hapart.withoutNibbles_events hb] <;> exact fun _ => rfl
    · exact { sameRegisters_registers_withCfg hi hb s { s.cfg with wiring := w } with }

/-! ## Along a run -/

@[simp] theorem registers_fault (i : Instr) (s : State) : (registers i s).fault = s.fault := by cases i <;> rfl

section
variable {a b : List TransportEvent} {s u : State}

theorem SameBytes.dropRequest (h : SameBytes a b s u) (rest : List Request) :
    SameBytes a b { s with port := rest } { u with port := rest } := { h with port := rfl }

theorem SameBytes.raise (h : SameBytes a b s u) (r : FaultReason) : SameBytes a b (raise r s) (raise r u) :=
  { h with fault := rfl }

/-- A bare pulse has no transport event (R118). -/
theorem SameBytes.pulseEnable (h : SameBytes a b s u) : SameBytes a b (pulseEnable s) (pulseEnable u) := { h with }

theorem SameBytes.registers (h : SameBytes a b s u) (i : Instr) : SameBytes a b (registers i s) (registers i u) where
  __ := h.apartInWiring.registers i
  init := ⟨registers_init_of_init i h.init.1, registers_init_of_init i h.init.2⟩
  fault := by simpa using h.fault
  port := by simpa using h.port
  sent := by simpa using h.sent

theorem SameBytes.emitAll (h : SameBytes a b s u) {evs evs' : List TransportEvent}
    (hevs : withoutNibbles evs' = withoutNibbles evs) : SameBytes a b (emitAll evs s) (emitAll evs' u) := by
  obtain ⟨sent, sent', hs, hu, hsame⟩ := h.sent
  exact { h with sent := ⟨sent ++ evs, sent' ++ evs', by simp [hs], by simp [hu], by simp [hsame, hevs]⟩ }

/-- One instruction on both: begin raises the same fault on both (R203), everything else sends the same bytes. -/
theorem SameBytes.result (h : SameBytes a b s u) (i : Instr) : SameBytes a b (result i s) (result i u) := by
  have hraises := h.apartInWiring.raises i
  obtain ⟨r, hr, he⟩ | ⟨_, rfl, _⟩ | ⟨hr, hp, he⟩ := result_cases i s
  · rw [he, result_of_raises (hraises.trans hr)]
    exact h.raise r
  · exact h.pulseEnable
  · rw [he, result_of_raises_none (hraises.trans hr) hp]
    have hb : ∀ a b c, i ≠ .begin a b c := by
      rintro a b c rfl
      simp [raises_begin, h.init.1] at hr
    exact (h.registers i).emitAll (h.apartInWiring.withoutNibbles_events hb)

end

/-- Settles O60: the two blocks hold the same fault and the same list, so a step of both stops alike, is idle on both,
or runs one instruction on both. -/
theorem stepKeepsBytesEqualAcrossWirings : Obligations.StepKeepsBytesEqualAcrossWirings := by
  intro a b s u h
  cases hf : s.fault with
  | some r =>
    rw [step_of_fault hf, step_of_fault (h.fault.trans hf)]
    exact ⟨fun _ ht => (nomatch ht), fun _ hr => hr, nofun⟩
  | none =>
    have hfu := h.fault.trans hf
    cases hp : s.port with
    | nil =>
      rw [step_of_port_nil hf hp, step_of_port_nil hfu (h.port.trans hp)]
      refine ⟨?_, nofun, nofun⟩
      rintro _ ⟨⟩
      exact ⟨u, rfl, h⟩
    | cons q rest =>
      have hpu := h.port.trans hp
      cases hq : q.decode with
      | error e =>
        rw [step_of_decode_error hf hp hq, step_of_decode_error hfu hpu hq]
        exact ⟨fun _ ht => (nomatch ht), nofun, fun _ hr => hr⟩
      | ok i =>
        rw [stepRunsDecodedRequest s q rest i hf hp hq, stepRunsDecodedRequest u q rest i hfu hpu hq,
          exec_eq i { s with port := rest } hf, exec_eq i { u with port := rest } hfu]
        refine ⟨?_, nofun, nofun⟩
        rintro _ ⟨⟩
        exact ⟨_, rfl, (h.dropRequest rest).result i⟩

end Sys2Proof.Machine
end

section
/-! PROOFS. The assembly text (R94): the text of an operation reads back as the operation (O4), and the
pseudo-operations expand (O5). One lemma per kind of token for the lexer, one per list of operands for the reader. -/

namespace Sys2Proof.Machine

/-! ## Names -/

theorem lexBytes_cons {l l' : Lexed} {b : Byte} (h : lexByte l b = .ok l') (bs : List Byte) :
    lexBytes l (b :: bs) = lexBytes l' bs := by
  rw [lexBytes, h]

/-- A name in the text: letters, and at least one. -/
def isWord : List Byte → Bool
  | [] => false
  | b :: bs => isLetter b && bs.all isLetter

/-- A letter is none of the bytes that `lexStart` looks for before it. -/
theorem lexStart_letter {b : Byte} (h : isLetter b = true) (toks : List Token) :
    lexStart toks b = .ok (toks, .name [b]) := by
  have hne : ∀ c, isLetter c = false → b ≠ c := by
    rintro c hc rfl
    simp [h] at hc
  simp only [lexStart, hne (ascii ' ') rfl, hne 0x09 rfl, hne 0x0D rfl, hne 0x0A rfl, hne (ascii ';') rfl,
    hne (ascii '(') rfl, hne (ascii ')') rfl, hne (ascii '[') rfl, hne (ascii ']') rfl, hne (ascii ',') rfl,
    hne 0x22 rfl, hne 0x27 rfl, hne (ascii '0') rfl, or_self, if_false, h, if_true]

theorem lexBytes_letters {cs : List Byte} (h : cs.all isLetter = true) (toks : List Token) (n rest : List Byte) :
    lexBytes (toks, .name n) (cs ++ rest) = lexBytes (toks, .name (cs.reverse ++ n)) rest := by
  induction cs generalizing n with
  | nil => rfl
  | cons c cs ih =>
    simp only [List.all_cons, Bool.and_eq_true] at h
    have hc : lexByte (toks, .name n) c = .ok (toks, .name (c :: n)) := by simp [lexByte, h.1]
    rw [List.cons_append, lexBytes_cons hc, ih h.2]
    simp

theorem lexBytes_word {name : List Byte} (h : isWord name = true) (toks : List Token) (rest : List Byte) :
    lexBytes (toks, .start) (name ++ rest) = lexBytes (toks, .name name.reverse) rest := by
  cases name with
  | nil => cases h
  | cons b bs =>
    simp only [isWord, Bool.and_eq_true] at h
    rw [List.cons_append, lexBytes_cons (l := (toks, .start)) (lexStart_letter h.1 toks), lexBytes_letters h.2]
    simp

theorem lexBytes_word_lparen {name : List Byte} (h : isWord name = true) (toks : List Token) (rest : List Byte) :
    lexBytes (toks, .start) (name ++ ascii '(' :: rest) = lexBytes (.lparen :: .name name :: toks, .start) rest := by
  rw [lexBytes_word h, lexBytes_cons]
  rw [lexByte, List.reverse_reverse]
  rfl

/-! ## Byte operands -/

theorem hexDigit_digitOf (n : Nibble) : hexDigit (digitOf n) = some n.toNat := by
  revert n; decide

theorem nibbles_toNat (b : Byte) : 16 * (highNibble b).toNat + (lowNibble b).toNat = b.toNat := by
  rw [highNibble_eq, lowNibble_eq, BitVec.toNat_ofNat, BitVec.toNat_ofNat]
  omega

/-- `0xNN` is read as its value; the number is open until a byte that is no digit. -/
theorem lexBytes_renderByte (b : Byte) (toks : List Token) (rest : List Byte) :
    lexBytes (toks, .start) (renderByte b ++ rest) = lexBytes (toks, .hex b.toNat) rest := by
  have hhigh : lexByte (toks, .hexStart) (digitOf (highNibble b)) = .ok (toks, .hex (highNibble b).toNat) := by
    rw [lexByte, hexDigit_digitOf]
  have hlow : lexByte (toks, .hex (highNibble b).toNat) (digitOf (lowNibble b)) = .ok (toks, .hex b.toNat) := by
    rw [lexByte, hexDigit_digitOf, ← nibbles_toNat]
  simp only [renderByte, List.cons_append, List.nil_append]
  rw [lexBytes_cons (l' := (toks, .zero)) rfl, lexBytes_cons (l' := (toks, .hexStart)) rfl, lexBytes_cons hhigh,
    lexBytes_cons hlow]

/-- A comma and a space after a byte operand. -/
theorem lexBytes_renderByte_comma (b : Byte) (toks : List Token) (rest : List Byte) :
    lexBytes (toks, .start) (renderByte b ++ ascii ',' :: ascii ' ' :: rest) =
      lexBytes (.comma :: .num b.toNat :: toks, .start) rest := by
  rw [lexBytes_renderByte, lexBytes_cons (l' := (.comma :: .num b.toNat :: toks, .start)) rfl,
    lexBytes_cons (l' := (.comma :: .num b.toNat :: toks, .start)) rfl]

/-- The tokens of a list of byte operands. -/
def operandTokens (bs : List Byte) : List Token := (bs.map fun b => Token.num b.toNat).intersperse .comma

theorem operandTokens_singleton (b : Byte) : operandTokens [b] = [.num b.toNat] := rfl

theorem operandTokens_cons_cons (b c : Byte) (bs : List Byte) :
    operandTokens (b :: c :: bs) = .num b.toNat :: .comma :: operandTokens (c :: bs) := rfl

theorem newline_not_mem_operandTokens : ∀ bs, .newline ∉ operandTokens bs
  | [] => List.not_mem_nil
  | [b] => by simp [operandTokens_singleton]
  | b :: c :: bs => by simpa [operandTokens_cons_cons] using newline_not_mem_operandTokens (c :: bs)

theorem renderList_cons_cons (b c : Byte) (bs : List Byte) :
    renderList (b :: c :: bs) = renderByte b ++ ascii ',' :: ascii ' ' :: renderList (c :: bs) := by
  simp [renderList]

/-- A list of operands is read up to the bracket that closes it. -/
theorem lexBytes_renderList {close : Byte} {tok : Token} (hhex : hexDigit close = none)
    (hstart : ∀ toks, lexStart toks close = .ok (tok :: toks, .start)) (bs : List Byte) (toks : List Token)
    (rest : List Byte) :
    lexBytes (toks, .start) (renderList bs ++ close :: rest) =
      lexBytes (tok :: ((operandTokens bs).reverse ++ toks), .start) rest := by
  induction bs generalizing toks with
  | nil => exact lexBytes_cons (l := (toks, .start)) (hstart toks) rest
  | cons b bs ih =>
    cases bs with
    | nil =>
      rw [renderList, lexBytes_renderByte, lexBytes_cons]
      rw [lexByte, hhex]
      exact hstart _
    | cons c cs =>
      rw [renderList_cons_cons, List.append_assoc, List.cons_append, List.cons_append, lexBytes_renderByte_comma, ih]
      simp [operandTokens_cons_cons]

theorem tokens_of_lexBytes {bs : List Byte} {toks : List Token} (h : lexBytes ([], .start) bs = .ok (toks, .start)) :
    tokens bs = .ok toks.reverse := by
  rw [tokens, h]

theorem tokens_renderCall {name : List Byte} (h : isWord name = true) (bs : List Byte) :
    tokens (renderCall name bs) = .ok (.name name :: .lparen :: (operandTokens bs ++ [.rparen])) := by
  rw [tokens_of_lexBytes (toks := .rparen :: ((operandTokens bs).reverse ++ [.lparen, .name name]))]
  · simp
  · simp only [renderCall, List.append_assoc, List.cons_append, List.nil_append]
    rw [lexBytes_word_lparen h, lexBytes_renderList rfl fun _ => rfl]
    rfl

/-! ## Reading operands -/

/-- A list of operands in parentheses. -/
theorem readArgs_operandTokens (b : Byte) (bs : List Byte) (acc : List Arg) :
    readArgs .operand acc (operandTokens (b :: bs) ++ [.rparen]) =
      some (acc.reverse ++ (b :: bs).map fun b => .num b.toNat) := by
  induction bs generalizing b acc with
  | nil => simp [operandTokens_singleton, readArgs]
  | cons c cs ih => simp [operandTokens_cons_cons, readArgs, ih]

theorem readArgs_call (bs : List Byte) :
    readArgs .first [] (operandTokens bs ++ [.rparen]) = some (bs.map fun b => .num b.toNat) := by
  match bs with
  | [] => rfl
  | [b] => rfl
  | b :: c :: cs => exact readArgs_operandTokens b (c :: cs) []

/-- A list of operands in square brackets is one operand. -/
theorem readArgs_element_operandTokens (b : Byte) (bs : List Byte) (vs : List Nat) (acc : List Arg) (ts : List Token) :
    readArgs (.element vs) acc (operandTokens (b :: bs) ++ .rbracket :: ts) =
      readArgs .after (.list (vs.reverse ++ (b :: bs).map BitVec.toNat) :: acc) ts := by
  induction bs generalizing b vs with
  | nil => simp [operandTokens_singleton, readArgs]
  | cons c cs ih => simp [operandTokens_cons_cons, readArgs, ih]

@[simp] theorem byteOf_toNat (b : Byte) : byteOf b.toNat = some b := by
  simp [byteOf, b.isLt]

theorem patternOf_patternBytes (p : Pattern) : patternOf ((patternBytes p).map BitVec.toNat) = some p := by
  simp [patternOf, patternBytes]

/-! ## Statements -/

/-- Tokens without a line break are one statement. -/
theorem statements_of_one_line {ts : List Token} (h : .newline ∉ ts) (line : List Token) :
    statements line ts = statement (line.reverse ++ ts) := by
  induction ts generalizing line with
  | nil => simp [statements]
  | cons t ts ih =>
    rw [List.mem_cons, not_or] at h
    rw [statements, ih h.2]
    · simp
    · rintro rfl; exact h.1 rfl

theorem assemble_one_line {bs : List Byte} {ts : List Token} (h : tokens bs = .ok ts) (hline : .newline ∉ ts) :
    assemble bs = statement ts := by
  rw [assemble, h]
  exact statements_of_one_line hline []

theorem statement_call {name : List Byte} {ts : List Token} {f : List Arg → Option (List Instr)} {args : List Arg}
    {is : List Instr} (hf : readerOf name = some f) (hargs : readArgs .first [] ts = some args)
    (his : f args = some is) :
    statement (.name name :: .lparen :: ts) = .ok is := by
  simp only [statement, hf, hargs, his]

/-- The text of a call reads back as what the name makes of the operands. -/
theorem assemble_renderCall {name bs : List Byte} {f : List Arg → Option (List Instr)} {is : List Instr}
    (hname : isWord name = true) (hf : readerOf name = some f) (his : f (bs.map fun b => .num b.toNat) = some is) :
    assemble (renderCall name bs) = .ok is := by
  rw [assemble_one_line (tokens_renderCall hname bs) (by simp [newline_not_mem_operandTokens])]
  exact statement_call hf (readArgs_call bs) his

/-! createChar: its pattern stands in square brackets. -/

/-- The text of createChar. -/
def createCharText (index : Byte) (p : Pattern) : List Byte :=
  nameCreateChar ++ [ascii '('] ++ renderByte index ++ [ascii ',', ascii ' ', ascii '['] ++
    renderList (patternBytes p) ++ [ascii ']', ascii ')']

theorem render_createChar (index : Byte) (p : Pattern) :
    render (.createChar index p) = some (createCharText index p) := rfl

/-- The tokens after createChar's opening parenthesis. -/
def createCharTokens (index : Byte) (p : Pattern) : List Token :=
  .num index.toNat :: .comma :: .lbracket :: (operandTokens (patternBytes p) ++ [.rbracket, .rparen])

theorem tokens_createCharText (index : Byte) (p : Pattern) :
    tokens (createCharText index p) = .ok (.name nameCreateChar :: .lparen :: createCharTokens index p) := by
  rw [tokens_of_lexBytes (toks := .rparen :: .rbracket :: ((operandTokens (patternBytes p)).reverse ++
    [.lbracket, .comma, .num index.toNat, .lparen, .name nameCreateChar]))]
  · simp [createCharTokens]
  · simp only [createCharText, List.append_assoc, List.cons_append, List.nil_append]
    rw [lexBytes_word_lparen rfl, lexBytes_renderByte_comma, lexBytes_cons (l' := (.lbracket :: _, .start)) rfl,
      lexBytes_renderList rfl fun _ => rfl]
    rfl

theorem readArgs_createCharTokens (index : Byte) (p : Pattern) :
    readArgs .first [] (createCharTokens index p) =
      some [.num index.toNat, .list ((patternBytes p).map BitVec.toNat)] :=
  readArgs_element_operandTokens p.p0 [p.p1, p.p2, p.p3, p.p4, p.p5, p.p6, p.p7] [] _ _

theorem assemble_createCharText (index : Byte) (p : Pattern) :
    assemble (createCharText index p) = .ok [.createChar index p] := by
  rw [assemble_one_line (tokens_createCharText index p) (by simp [createCharTokens, newline_not_mem_operandTokens])]
  exact statement_call rfl (readArgs_createCharTokens index p) (by simp [createCharOf, patternOf_patternBytes])

/-- Settles O4: a name of letters before byte operands in parentheses reads back, and createChar's pattern in its
brackets. -/
theorem assemblyReadsBackRenderedOperation : Obligations.AssemblyReadsBackRenderedOperation := by
  intro i
  refine ⟨by cases i <;> rfl, fun bs h => ?_⟩
  cases i <;> cases h
  case createChar index p => exact assemble_createCharText index p
  case begin cols rows charsize => exact assemble_renderCall rfl rfl (by simp [beginOf])
  case setCursor col row => exact assemble_renderCall rfl rfl (by simp [setCursorOf])
  case write v => exact assemble_renderCall rfl rfl (by simp [oneByteOf])
  case command v => exact assemble_renderCall rfl rfl (by simp [oneByteOf])
  all_goals exact assemble_renderCall rfl rfl rfl

/-! ## Pseudo-operations -/

theorem lexBytes_string {cs : List Byte} (h : ∀ b ∈ cs, b ≠ 0x22 ∧ b ≠ 0x0A) (toks : List Token)
    (acc rest : List Byte) :
    lexBytes (toks, .str acc) (cs ++ 0x22 :: rest) = lexBytes (.str (acc.reverse ++ cs) :: toks, .start) rest := by
  induction cs generalizing acc with
  | nil => rw [List.append_nil]; rfl
  | cons c cs ih =>
    obtain ⟨⟨hquote, hbreak⟩, hcs⟩ := List.forall_mem_cons.1 h
    have hc : lexByte (toks, .str acc) c = .ok (toks, .str (c :: acc)) := by
      rw [lexByte, if_neg hquote, if_neg hbreak]
    rw [List.cons_append, lexBytes_cons hc, ih hcs]
    simp

theorem tokens_print {s : List Byte} (h : ∀ b ∈ s, b ≠ 0x22 ∧ b ≠ 0x0A) :
    tokens (namePrint ++ [ascii '(', 0x22] ++ s ++ [0x22, ascii ')']) =
      .ok [.name namePrint, .lparen, .str s, .rparen] := by
  rw [tokens_of_lexBytes (toks := [.rparen, .str s, .lparen, .name namePrint])]
  · rfl
  · simp only [List.append_assoc, List.cons_append, List.nil_append]
    rw [lexBytes_word_lparen rfl, lexBytes_cons (l' := (_, .str [])) rfl, lexBytes_string h]
    rfl

/-- A name alone on its line. -/
theorem tokens_word {name : List Byte} (h : isWord name = true) : tokens name = .ok [.name name] := by
  have hlex := lexBytes_word h [] []
  rw [List.append_nil] at hlex
  simp [tokens, hlex, lexBytes]

/-- Settles O5: a string literal is one token with its bytes in order, and `clearNoWait` is one name, before
parentheses or alone. -/
theorem pseudoOperationsExpand : Obligations.PseudoOperationsExpand := by
  refine ⟨fun s h => ?print, ?bare, ?call⟩
  case print =>
    rw [assemble_one_line (tokens_print h) (by simp)]
    exact statement_call rfl rfl rfl
  case bare =>
    rw [assemble_one_line (tokens_word rfl) (by simp)]
    rfl
  case call => exact assemble_renderCall (name := nameClearNoWait) (bs := []) rfl rfl rfl

end Sys2Proof.Machine
end

section
/-! PROOFS. The lowering to pins (40_transport.md): the levels it leaves and its enable pulses, on the direct-pin
transport and on another (R111 to R121); the enable line rests at 0 (O47), and every pulse keeps the properties of R121
(O57, O59). -/

namespace Sys2Proof.Machine

/-! ## The level the lowering leaves on the enable line (R118) -/

theorem lower_of_directPin {cfg : Config} (h : cfg.transport = .directPin) : lower cfg = lowerDirect cfg := by
  funext ev
  rw [lower, h]

theorem lowerPulse_of_directPin {cfg : Config} (h : cfg.transport = .directPin) : lowerPulse cfg = directPulse cfg := by
  rw [lowerPulse, h]

@[simp] theorem lastLevel_directPulse (cfg : Config) : lastLevel (directPulse cfg) cfg.ePin = some false := by
  simp [directPulse, lastLevel]

/-- A transfer ends with its pulse, so its data drives do not matter, shared pins or not (R36). -/
theorem lastLevel_append_directPulse (ps : List PinEvent) (cfg : Config) :
    lastLevel (ps ++ directPulse cfg) cfg.ePin = some false := by
  rw [lastLevel_append, lastLevel_directPulse, Option.some_or]

/-- No event of a direct-pin block leaves the enable line at 1: the one drive to 1 outside a pulse is of register
select. -/
theorem lastLevel_lowerDirect_ne_high {cfg : Config} (h : cfg.ePin ≠ cfg.rsPin) (ev : TransportEvent) :
    lastLevel (lowerDirect cfg ev) cfg.ePin ≠ some true := by
  cases ev with
  | setMode m =>
    cases hrw : cfg.rwPin <;> simp [lowerDirect, driveReadWrite, hrw, lastLevel, h.symm]
  | write4 n => simp [lowerDirect, lastLevel_append_directPulse]
  | write8 b =>
    rw [lowerDirect]
    split
    · simp [lastLevel]
    · simp [lastLevel_append_directPulse]
  | delay t => simp [lowerDirect, lastLevel]

theorem lastLevel_flatMap_ne {f : TransportEvent → List PinEvent} {p : PinId} {v : Bool}
    (h : ∀ ev, lastLevel (f ev) p ≠ some v) (evs : List TransportEvent) : lastLevel (evs.flatMap f) p ≠ some v := by
  induction evs with
  | nil => simp [lastLevel]
  | cons ev evs ih => simp [lastLevel_append, Option.or_eq_some_iff, ih, h ev]

/-! ## The enable line between steps (R118, R34) -/

theorem EnableLow.drivePins {s : State} {ps : List PinEvent} (h : EnableLow s)
    (hps : s.cfg.transport = .directPin → s.cfg.ePin ≠ s.cfg.rsPin → lastLevel ps s.cfg.ePin ≠ some true) :
    EnableLow (drivePins ps s) := by
  intro htransport hpins
  have hlast : lastLevel ps s.cfg.ePin ≠ some true := hps htransport hpins
  have hlevel : lineLevel s.line s.cfg.ePin ≠ some true := h htransport hpins
  simp [lineLevel_applyPins, Option.or_eq_some_iff, hlast, hlevel]

theorem EnableLow.pulseEnable {s : State} (h : EnableLow s) : EnableLow (pulseEnable s) :=
  h.drivePins fun htransport _ => by simp [lowerPulse_of_directPin htransport]

theorem EnableLow.emitAll {s : State} (h : EnableLow s) (evs : List TransportEvent) : EnableLow (emitAll evs s) :=
  h.drivePins fun htransport hpins => by
    rw [lower_of_directPin htransport]
    exact lastLevel_flatMap_ne (lastLevel_lowerDirect_ne_high hpins) evs

theorem EnableLow.registers {s : State} (h : EnableLow s) (i : Instr) : EnableLow (registers i s) := by
  simpa [EnableLow] using h

/-- Settles O47: lines are driven by the lowering of events and by bare pulses alone, and neither leaves enable at 1. -/
theorem stepKeepsEnableLow : Obligations.StepKeepsEnableLow := by
  intro s t h hstep
  exact step_keeps h hstep (fun _ _ h => h) (fun _ _ h => h) (fun _ h => h.pulseEnable) (fun i _ h => h.registers i)
    fun evs _ h => h.emitAll evs

/-! ## Enable pulses (R121, R239) -/

/-- Data drives before the rise of enable are no part of a pulse. -/
theorem scanPulses_driveData_append {e : PinId} {data : List PinId} (he : e ∉ data) (guarded : List PinId)
    (width : Nat) (v : Byte) (k : Nat) (es : List PinEvent) :
    scanPulses e guarded width none (driveData v k data ++ es) = scanPulses e guarded width none es := by
  induction data generalizing k with
  | nil => rfl
  | cons p ps ih =>
    obtain ⟨hp, hps⟩ := List.ne_and_not_mem_of_not_mem_cons he
    simp [driveData, scanPulses, hp.symm, ih hps]

/-- The pulse of R118 is one pulse on every configuration: between its rise and its fall nothing is driven. -/
@[simp] theorem pulses_directPulse (cfg : Config) : pulses cfg (directPulse cfg) = some 1 := by
  simp [pulses, directPulse, scanPulses]

theorem pulses_driveData_append_directPulse {cfg : Config} {data : List PinId} (he : cfg.ePin ∉ data) (v : Byte) :
    pulses cfg (driveData v 0 data ++ directPulse cfg) = some 1 := by
  rw [pulses, scanPulses_driveData_append he]
  exact pulses_directPulse cfg

/-- The direct-pin lowering has the pulses its event owes, where the enable pin is none of the other lines (R113, R116,
R118). -/
theorem pulses_lowerDirect {cfg : Config} (hrs : cfg.ePin ≠ cfg.rsPin) (hd : cfg.ePin ∉ dataPins cfg)
    (ev : TransportEvent) : pulses cfg (lowerDirect cfg ev) = some (pulsesOwed cfg ev) := by
  cases ev with
  | setMode m =>
    cases hrw : cfg.rwPin <;>
      simp [lowerDirect, driveReadWrite, hrw, pulses, scanPulses, hrs.symm, pulsesOwed]
  | write4 n => exact pulses_driveData_append_directPulse (fun h => hd (List.mem_of_mem_take h)) _
  | write8 b =>
    rw [lowerDirect, pulsesOwed]
    split
    · rfl
    · exact pulses_driveData_append_directPulse hd b
  | delay t => rfl

theorem waitOwed_le_waits_lowerDirect (cfg : Config) (ev : TransportEvent) :
    waitOwed ev ≤ waits (lowerDirect cfg ev) := by
  cases ev with
  | delay t => exact le_rfl
  | setMode _ | write4 _ | write8 _ => exact Nat.zero_le _

theorem honours_lowerDirect {cfg : Config} (hrs : cfg.ePin ≠ cfg.rsPin) (hd : cfg.ePin ∉ dataPins cfg)
    (ev : TransportEvent) : honours cfg ev (lowerDirect cfg ev) = true := by
  simp [honours, pulses_lowerDirect hrs hd, waitOwed_le_waits_lowerDirect]

/-- Settles O57: the limits let a lowering break the properties only where the direct-pin one does, and with the enable
pin apart it does not. -/
theorem otherTransportKeepsPulseProperties : Obligations.OtherTransportKeepsPulseProperties := by
  intro cfg ev htransport hrs hd
  have hlimits := withinLimits_lowerOther cfg ev
  rw [lower, htransport]
  simpa [withinLimits, honours_lowerDirect hrs hd] using (Bool.and_eq_true_iff.1 hlimits).2

/-- Settles O59: the free value is taken where it is one pulse, and elsewhere the pulse of R118 stands in. -/
theorem barePulseIsOnePulse : Obligations.BarePulseIsOnePulse := by
  intro cfg
  unfold lowerPulse
  split
  · exact pulses_directPulse cfg
  · split
    case isTrue hlimits => exact hlimits.1
    case isFalse => exact pulses_directPulse cfg

end Sys2Proof.Machine
end

section
/-! PROOFS. The kind of transport shows in the pin trace and the lines alone (R121, O54). -/

namespace Sys2Proof.Machine

/-- The same block on a transport of kind `k`, with another pin trace and other lines. -/
def State.onTransport (s : State) (k : Transport) (ps : List PinEvent) (l : List (PinId × Bool)) : State :=
  { s with cfg := { s.cfg with transport := k }, pins := ps, line := l }

section
variable (i : Instr) (s : State) (k : Transport) (ps : List PinEvent) (l : List (PinId × Bool))

theorem raises_onTransport : raises i (s.onTransport k ps l) = raises i s := by cases i <;> rfl

theorem events_onTransport : events i (s.onTransport k ps l) = events i s := by cases i <;> rfl

theorem registers_onTransport : registers i (s.onTransport k ps l) = (registers i s).onTransport k ps l := by
  cases i <;> rfl

/-- Guards, events and registers do not read the transport; the lowering does, and it drives pins only. -/
theorem result_onTransport : ∃ ps' l', result i (s.onTransport k ps l) = (result i s).onTransport k ps' l' := by
  have hraises := raises_onTransport i s k ps l
  obtain ⟨r, hr, he⟩ | ⟨_, rfl, _⟩ | ⟨hr, hp, he⟩ := result_cases i s
  · rw [he, result_of_raises (hraises.trans hr)]
    exact ⟨ps, l, rfl⟩
  · exact ⟨_, _, rfl⟩
  · rw [he, result_of_raises_none (hraises.trans hr) hp, events_onTransport, registers_onTransport]
    exact ⟨_, _, rfl⟩

end

@[simp] theorem result_cfg (i : Instr) (s : State) : (result i s).cfg = s.cfg :=
  result_keeps (P := fun u => u.cfg = s.cfg) (fun _ => rfl) rfl (registers_cfg i s) fun _ _ h => h

/-- Settles O54: the answer on the other transport is the answer on this one but for the transport, the pin trace and
the lines. -/
theorem transportKindDoesNotShowInTrace : Obligations.TransportKindDoesNotShowInTrace := by
  intro i s t k ps l ht
  obtain ⟨hf, rfl⟩ := exec_next ht
  obtain ⟨ps', l', he⟩ := result_onTransport i s k ps l
  have hexec : exec i (s.onTransport k ps l) = .next ((result i s).onTransport k ps' l') := by
    rw [← he]; exact exec_eq i (s.onTransport k ps l) hf
  refine ⟨_, hexec, rfl, ⟨?_, rfl, rfl, rfl, rfl, rfl, rfl, rfl, rfl, rfl⟩⟩
  simp [State.onTransport]

end Sys2Proof.Machine
end

section
/-! PROOFS. The sequencer's primitives as calls (R110 to R118): what each emits and, on a direct-pin block, the pin events
it drives (O11 to O16). -/

namespace Sys2Proof.Machine

/-! ## The wiring (R5), and nibbles on data lines (R52, R53) -/

theorem fourbit_of_four {cfg : Config} {d0 d1 d2 d3 : PinId} (h : cfg.wiring = .four d0 d1 d2 d3) :
    fourbit cfg = true := by
  rw [fourbit, h]

theorem fourbit_of_eight {cfg : Config} {d0 d1 d2 d3 d4 d5 d6 d7 : PinId}
    (h : cfg.wiring = .eight d0 d1 d2 d3 d4 d5 d6 d7) : fourbit cfg = false := by
  rw [fourbit, h]

theorem lowNibble_getElem (b : Byte) (k : Nat) (h : k < 4) : (lowNibble b)[k] = b[k] := by
  rw [lowNibble, BitVec.getElem_extractLsb', Nat.zero_add, BitVec.getLsbD_eq_getElem]

theorem highNibble_getElem (b : Byte) (k : Nat) (h : k < 4) : (highNibble b)[k] = b[4 + k] := by
  rw [highNibble, BitVec.getElem_extractLsb', BitVec.getLsbD_eq_getElem]

/-- The drives of a nibble and its pulse, with the data pins written out (R113). -/
theorem lowerDirect_write4 {cfg : Config} {d0 d1 d2 d3 : PinId} {rest : List PinId}
    (h : dataPins cfg = d0 :: d1 :: d2 :: d3 :: rest) (n : Nibble) :
    lowerDirect cfg (.write4 n) =
      [.drive d0 (n.getLsbD 0), .drive d1 (n.getLsbD 1), .drive d2 (n.getLsbD 2), .drive d3 (n.getLsbD 3)] ++
        directPulse cfg := by
  simp [lowerDirect, h, driveData]

/-! ## The calls -/

/-- What a call that only emits does, with its pin events on a direct-pin block. -/
theorem emits_of_result {i : Instr} {s : State} {evs : List TransportEvent} (h : s.fault = none)
    (hr : result i s = emitAll evs s) :
    ∃ t, exec i s = .next t ∧ SameRegisters s t ∧ Emits s t evs ∧
      (s.cfg.transport = .directPin → DrivesPins s t (evs.flatMap (lowerDirect s.cfg))) := by
  have hemits := emits_emitAll evs s
  refine ⟨_, (exec_eq i s h).trans (by rw [hr]), sameRegisters_emitAll evs s, hemits, fun htransport => ?_⟩
  rw [← lower_of_directPin htransport]
  exact hemits.2

theorem result_write8bits (b : Byte) (s : State) :
    result (.write8bits b) s = emitAll (transferEvents s.cfg .command b).tail s := rfl

/-- Settles O11: the lowering of the one event is the register-select drive at the mode's level, then the read/write
drive. -/
theorem setModeSelectsRegister : Obligations.SetModeSelectsRegister := by
  intro m s h
  obtain ⟨t, hexec, hregs, hemits, hdrives⟩ := emits_of_result (i := .setMode m) (evs := [.setMode m]) h rfl
  refine ⟨t, hexec, hregs, hemits, fun htransport => ?_⟩
  have hlevel : decide (m = .data) = m.level := by cases m <;> rfl
  rw [hlevel]
  cases hrw : s.cfg.rwPin <;> simpa [lowerDirect, driveReadWrite, hrw] using hdrives htransport

/-- Settles O12: the one event carries the low nibble, and its lowering is read off the first four data pins. -/
theorem write4bitsSendsLowNibble : Obligations.Write4bitsSendsLowNibble := by
  intro n s h
  obtain ⟨t, hexec, hregs, hemits, hdrives⟩ :=
    emits_of_result (i := .write4bits n) (evs := [.write4 (lowNibble n)]) h rfl
  refine ⟨t, hexec, hregs, lowNibble_eq n ▸ hemits, fun htransport d0 d1 d2 d3 rest hpins => ?_⟩
  simpa [lowerDirect_write4 hpins, lowNibble_getElem, directPulse] using hdrives htransport

/-- Settles O13: on 8-bit wiring the byte is one event, lowered to a drive of each data pin and a pulse. -/
theorem write8bitsSendsByteOnEightWires : Obligations.Write8bitsSendsByteOnEightWires := by
  intro b s d0 d1 d2 d3 d4 d5 d6 d7 h hwiring
  have hfour : fourbit s.cfg = false := fourbit_of_eight hwiring
  have hresult : result (.write8bits b) s = emitAll [.write8 b] s := by
    simp [result_write8bits, transferEvents, hfour]
  obtain ⟨t, hexec, hregs, hemits, hdrives⟩ := emits_of_result h hresult
  refine ⟨t, hexec, hregs, hemits, fun htransport => ?_⟩
  simpa [lowerDirect, hfour, dataPins, hwiring, driveData, directPulse] using hdrives htransport

/-- Settles O14: on 4-bit wiring the byte's own event drives nothing, and the two nibbles after it drive the data pins
with bits 7 to 4, then 3 to 0. -/
theorem write8bitsSplitsByteOnFourWires : Obligations.Write8bitsSplitsByteOnFourWires := by
  intro b s d0 d1 d2 d3 h hwiring
  have hfour : fourbit s.cfg = true := fourbit_of_four hwiring
  have hpins : dataPins s.cfg = [d0, d1, d2, d3] := by rw [dataPins, hwiring]
  have hresult : result (.write8bits b) s =
      emitAll [.write8 b, .write4 (highNibble b), .write4 (lowNibble b)] s := by
    simp [result_write8bits, transferEvents, hfour, highNibble_eq, lowNibble_eq]
  obtain ⟨t, hexec, hregs, hemits, hdrives⟩ := emits_of_result h hresult
  refine ⟨t, hexec, hregs, highNibble_eq b ▸ lowNibble_eq b ▸ hemits, fun htransport => ?_⟩
  have hbyte : lowerDirect s.cfg (.write8 b) = [] := by rw [lowerDirect, hfour]; rfl
  simpa [hbyte, lowerDirect_write4 hpins, lowNibble_getElem, highNibble_getElem, directPulse] using hdrives htransport

/-- Settles O15: the call writes the wiring into the model's own field, and emits nothing. -/
theorem fourbitmodeReportsWiring : Obligations.FourbitmodeReportsWiring := by
  intro s h
  have hexec : exec .fourbitmode s = .next (writeAnswer (fourbit s.cfg) s) :=
    (exec_eq .fourbitmode s h).trans (congrArg _ (emitAll_nil _))
  refine ⟨fun d0 d1 d2 d3 hwiring => ?_, fun d0 d1 d2 d3 d4 d5 d6 d7 hwiring => ?_⟩
  · rw [hexec, fourbit_of_four hwiring, writeAnswer]
  · rw [hexec, fourbit_of_eight hwiring, writeAnswer]

/-- Settles O16: the call drives the lowering of a bare pulse, which on a direct-pin block ends with enable at 0. -/
theorem pulseEnableDrivesOnePulse : Obligations.PulseEnableDrivesOnePulse := by
  intro s h
  have hdrives : DrivesPins s (pulseEnable s) (lowerPulse s.cfg) := drivesPins_drivePins _ s
  refine ⟨pulseEnable s, exec_eq .pulseEnable s h, ⟨rfl, rfl, rfl, rfl, rfl, rfl, rfl, rfl, rfl, rfl⟩, rfl, hdrives,
    fun htransport => ?_⟩
  rw [lowerPulse_of_directPin htransport] at hdrives
  refine ⟨hdrives, ?_⟩
  rw [hdrives.2, lastLevel_directPulse, Option.some_or]

end Sys2Proof.Machine
end

section
/-! PROOFS. begin (R130 to R138): the registers it leaves and the sequence it emits (O20), and the operand it does not
read (O22). -/

namespace Sys2Proof.Machine

/-- The flags of `DF`, set one by one, are the number that has them as its bits (R131). -/
theorem functionFlags_eq_beginFlags (fb : Bool) (rows charsize : Byte) :
    functionFlags fb rows charsize = beginFlags fb rows charsize := by
  have hlines : (1#8).ult rows = true ↔ 1 < rows.toNat := by simp [BitVec.ult]
  simp only [functionFlags, beginFlags, hlines]
  split_ifs <;> rfl

/-- The function-set byte that begin sends (R83, R131). -/
theorem functionSetByte_functionFlags (fb : Bool) (rows charsize : Byte) :
    functionSetByte (functionFlags fb rows charsize) = 0x20 ||| beginFlags fb rows charsize := by
  rw [functionSetByte, functionSetBase, functionFlags_eq_beginFlags]

/-- The registers begin writes are the six of R130, and no other field. -/
theorem registers_begin (cols rows charsize : Byte) (s : State) :
    registers (.begin cols rows charsize) s = beginRegisters rows charsize s := by
  rw [beginRegisters, ← functionFlags_eq_beginFlags]
  rfl

/-- begin's sequence as one list: the power-on wait, the initialisation of the wiring, then the four commands of the
baseline with the clear's settle delay (R133 to R136). -/
theorem events_begin (cols rows charsize : Byte) (s : State) :
    events (.begin cols rows charsize) s =
      let fs := transferEvents s.cfg .command (0x20 ||| beginFlags (fourbit s.cfg) rows charsize)
      [.delay s.cfg.timing.powerOn] ++ initEvents s.cfg fs ++ fs ++ transferEvents s.cfg .command 0x0C ++
        transferEvents s.cfg .command 0x01 ++ [.delay s.cfg.timing.clear] ++ transferEvents s.cfg .command 0x06 := by
  simp only [events, beginEvents, functionSetByte_functionFlags, List.append_assoc]

/-- On a block that is not initialised, begin writes its registers and emits its sequence (R130). -/
theorem result_begin_of_not_init (cols rows charsize : Byte) {s : State} (hi : s.init = false) :
    result (.begin cols rows charsize) s =
      emitAll (events (.begin cols rows charsize) s) (beginRegisters rows charsize s) := by
  have hraises : raises (.begin cols rows charsize) s = none := by rw [raises_begin, hi]; rfl
  rw [result_of_raises_none hraises (by simp), registers_begin]

/-- On an initialised block, begin records BeginTwice and does nothing else (R203). -/
theorem result_begin_of_init (cols rows charsize : Byte) {s : State} (hi : s.init = true) :
    result (.begin cols rows charsize) s = faulted .beginTwice s :=
  result_of_raises (by rw [raises_begin, hi]; rfl)

/-- Settles O20: begin answers `result`, which is the fault when `INIT` is 1, and else the six registers and the events
of `events_begin`, whose part for the wiring is `initEvents` written out. -/
theorem beginInitialisesBlock : Obligations.BeginInitialisesBlock := by
  intro cols rows charsize s h
  rw [exec_eq _ s h]
  refine ⟨fun hi => by rw [result_begin_of_init _ _ _ hi], fun hi => ?_⟩
  rw [result_begin_of_not_init _ _ _ hi, events_begin]
  exact ⟨_, rfl, sameRegisters_emitAll _ _, emits_emitAll _ (beginRegisters rows charsize s)⟩

/-- Settles O22: the meaning of begin does not read `cols`, so both outcomes are the same term (R138). -/
theorem columnsHaveNoEffect : Obligations.ColumnsHaveNoEffect := fun _ _ _ _ _ => rfl

end Sys2Proof.Machine
end

section
/-! PROOFS. What a guarded operation does before begin and after it (R202, R28, R90), and the display control operations
(42_display_control.md): clear and home (O23, O24), the display shifts (O26), the flags of `DC` (O25, O28) and of `DM`
(O27). -/

namespace Sys2Proof.Machine

/-! ## An operation before begin and after it -/

/-- Before begin every other operation raises NotInitialized; for setCursor it comes before the row check (R205). -/
theorem raises_of_not_init {i : Instr} {s : State} (hi : i.isInputOp = true) (hb : ∀ a b c, i ≠ .begin a b c)
    (h : s.init = false) : raises i s = some (.notInitialized i) := by
  cases i with
  | begin a b c => exact absurd rfl (hb a b c)
  | setCursor col row => simp [raises_setCursor, h]
  | _ => simp [raises, hi, h]

/-- After begin only begin and setCursor can raise (R203, R204). -/
theorem raises_of_init {i : Instr} {s : State} (hb : ∀ a b c, i ≠ .begin a b c)
    (hc : ∀ col row, i ≠ .setCursor col row) (h : s.init = true) : raises i s = none := by
  cases i with
  | begin a b c => exact absurd rfl (hb a b c)
  | setCursor col row => exact absurd rfl (hc col row)
  | _ => simp [raises, h]

theorem guardedByInit_of_isInputOp {i : Instr} (hi : i.isInputOp = true) (hb : ∀ a b c, i ≠ .begin a b c) :
    GuardedByInit i := fun s hf h =>
  (exec_eq i s hf).trans (congrArg _ (result_of_raises (raises_of_not_init hi hb h)))

theorem exec_of_running {i : Instr} {s : State} (hi : i.isInputOp = true) (hb : ∀ a b c, i ≠ .begin a b c)
    (hc : ∀ col row, i ≠ .setCursor col row) (h : Running s) :
    exec i s = .next (emitAll (events i s) (registers i s)) := by
  obtain ⟨hfault, hinit⟩ := h
  have hpulse : i ≠ .pulseEnable := by rintro rfl; cases hi
  rw [exec_eq i s hfault, result_of_raises_none (raises_of_init hb hc hinit) hpulse]

/-- Writing registers first does not show in what is emitted. -/
theorem emits_emitAll_registers (i : Instr) (evs : List TransportEvent) (s : State) :
    Emits s (emitAll evs (registers i s)) evs := by
  simpa [Emits, DrivesPins] using emits_emitAll evs (registers i s)

/-- An operation whose one guard is INIT: NotInitialized before begin, after it the registers and the events (R202). -/
theorem guarded_and_emits {i : Instr} (hi : i.isInputOp = true) (hb : ∀ a b c, i ≠ .begin a b c)
    (hc : ∀ col row, i ≠ .setCursor col row) :
    GuardedByInit i ∧ ∀ s, Running s →
      ∃ t, exec i s = .next t ∧ SameRegisters (registers i s) t ∧ Emits s t (events i s) :=
  ⟨guardedByInit_of_isInputOp hi hb, fun s h =>
    ⟨_, exec_of_running hi hb hc h, sameRegisters_emitAll _ _, emits_emitAll_registers i _ s⟩⟩

/-! ## Operations that write no register -/

/-- Settles O23: clear's events are the command and the settle delay (R150). -/
theorem clearSendsCommandAndSettles : Obligations.ClearSendsCommandAndSettles :=
  guarded_and_emits (i := .clear) rfl nofun nofun

/-- Settles O24: home's events are the command alone (R151). -/
theorem homeSendsCommandAlone : Obligations.HomeSendsCommandAlone :=
  guarded_and_emits (i := .home) rfl nofun nofun

/-- Settles O26: the shifts' events are one command each, and neither is a writer of a register (R158, R159). -/
theorem scrollsSendOppositeShiftsAndKeepEntryMode : Obligations.ScrollsSendOppositeShiftsAndKeepEntryMode := by
  intro i b hmem
  simp only [List.mem_cons, Prod.mk.injEq, List.not_mem_nil, or_false] at hmem
  obtain ⟨rfl, rfl⟩ | ⟨rfl, rfl⟩ := hmem
  · exact guarded_and_emits (i := .scrollDisplayLeft) rfl nofun nofun
  · exact guarded_and_emits (i := .scrollDisplayRight) rfl nofun nofun

/-! ## One flag of a register -/

theorem getLsbD_setFlag {reg flag : Byte} {bit k : Nat} (hflag : flag = BitVec.twoPow 8 bit) (hk : k < 8) :
    (setFlag reg flag).getLsbD k = if k = bit then true else reg.getLsbD k := by
  rw [hflag, setFlag, BitVec.getLsbD_or, BitVec.getLsbD_twoPow]
  by_cases hbit : k = bit
  · simp [hbit, hbit ▸ hk]
  · simp [hk, hbit, Ne.symm hbit]

theorem getLsbD_clearFlag {reg flag : Byte} {bit k : Nat} (hflag : flag = BitVec.twoPow 8 bit) (hk : k < 8) :
    (clearFlag reg flag).getLsbD k = if k = bit then false else reg.getLsbD k := by
  rw [hflag, clearFlag, BitVec.getLsbD_and, BitVec.getLsbD_not, BitVec.getLsbD_twoPow]
  by_cases hbit : k = bit
  · simp [hbit, hbit ▸ hk]
  · simp [hk, hbit, Ne.symm hbit]

theorem setFlag_clearFlag (reg flag : Byte) : setFlag (clearFlag reg flag) flag = setFlag reg flag := by
  ext k
  simp [setFlag, clearFlag, Bool.or_and_distrib_right]

/-! ## Display control (R152 to R157) -/

/-- Each display-control operation writes `DC` alone and re-sends what it wrote (R84). -/
theorem controlOperation_resends {i : Instr}
    (hi : i ∈ [.noDisplay, .display, .noCursor, .cursor, .noBlink, .blink]) :
    GuardedByInit i ∧ ∀ s, Running s → ∃ t, exec i s = .next t ∧
      SameRegisters { s with dc := (registers i s).dc } t ∧
      Emits s t (transferEvents s.cfg .command (0x08 ||| (registers i s).dc)) := by
  simp only [List.mem_cons, List.not_mem_nil, or_false] at hi
  obtain rfl | rfl | rfl | rfl | rfl | rfl := hi <;> exact guarded_and_emits rfl nofun nofun

/-- The value each display-control operation gives `DC`, bit by bit. -/
theorem controlOperation_dc_bits {i : Instr} {bit : Nat} {v : Bool}
    (hmem : (i, bit, v) ∈
      [(Instr.noDisplay, 2, false), (.display, 2, true), (.noCursor, 1, false), (.cursor, 1, true),
       (.noBlink, 0, false), (.blink, 0, true)]) (s : State) (k : Nat) (hk : k < 8) :
    (registers i s).dc.getLsbD k = if k = bit then v else s.dc.getLsbD k := by
  simp only [List.mem_cons, Prod.mk.injEq, List.not_mem_nil, or_false] at hmem
  obtain ⟨rfl, rfl, rfl⟩ | ⟨rfl, rfl, rfl⟩ | ⟨rfl, rfl, rfl⟩ | ⟨rfl, rfl, rfl⟩ | ⟨rfl, rfl, rfl⟩ |
    ⟨rfl, rfl, rfl⟩ := hmem
  · exact getLsbD_clearFlag (flag := displayOn) rfl hk
  · exact getLsbD_setFlag (flag := displayOn) rfl hk
  · exact getLsbD_clearFlag (flag := cursorOn) rfl hk
  · exact getLsbD_setFlag (flag := cursorOn) rfl hk
  · exact getLsbD_clearFlag (flag := blinkOn) rfl hk
  · exact getLsbD_setFlag (flag := blinkOn) rfl hk

/-- Settles O25: `DC` changes in the operation's own bit, and the whole of it is re-sent. -/
theorem displayControlWritesOneFlagAndResends : Obligations.DisplayControlWritesOneFlagAndResends := by
  intro i bit v hmem
  obtain ⟨hguard, hruns⟩ := controlOperation_resends (List.mem_map_of_mem (f := Prod.fst) hmem)
  refine ⟨hguard, fun s h => ?_⟩
  obtain ⟨t, hexec, hregs, hemits⟩ := hruns s h
  exact ⟨t, _, hexec, controlOperation_dc_bits hmem s, hregs, hemits⟩

theorem exec_noDisplay_of_running {s : State} (h : Running s) :
    exec .noDisplay s = .next (emitAll (transferEvents s.cfg .command (controlByte (clearFlag s.dc displayOn)))
      (writeDc (clearFlag s.dc displayOn) s)) :=
  exec_of_running rfl nofun nofun h

theorem exec_display_of_running {s : State} (h : Running s) :
    exec .display s = .next (emitAll (transferEvents s.cfg .command (controlByte (setFlag s.dc displayOn)))
      (writeDc (setFlag s.dc displayOn) s)) :=
  exec_of_running rfl nofun nofun h

/-- Settles O28: the second operation starts from the first one's `DC`, and setting a flag undoes its clearing; the two
emissions are one. -/
theorem displayAfterNoDisplayKeepsCursorAndBlink : Obligations.DisplayAfterNoDisplayKeepsCursorAndBlink := by
  intro s h
  have hdc : setFlag (clearFlag s.dc displayOn) displayOn = s.dc ||| 0x04 := setFlag_clearFlag s.dc displayOn
  have hbyte : controlByte (s.dc ||| 0x04) = 0x0C ||| s.dc := by
    rw [controlByte, BitVec.or_comm s.dc, ← BitVec.or_assoc]
    rfl
  refine ⟨_, _, exec_noDisplay_of_running h, exec_display_of_running h, ?_⟩
  rw [emitAll_dc (transferEvents _ _ (controlByte (clearFlag s.dc displayOn))), writeDc_dc, hdc, hbyte, writeDc_emitAll,
    emitAll_emitAll]
  exact ⟨rfl, sameRegisters_emitAll _ _, emits_emitAll _ (writeDc (s.dc ||| 0x04) s)⟩

/-! ## Entry mode (R160 to R163) -/

/-- Each entry-mode operation writes `DM` alone and re-sends what it wrote (R85). -/
theorem entryOperation_resends {i : Instr} (hi : i ∈ [.leftToRight, .rightToLeft, .autoscroll, .noAutoscroll]) :
    GuardedByInit i ∧ ∀ s, Running s → ∃ t, exec i s = .next t ∧
      SameRegisters { s with dm := (registers i s).dm } t ∧
      Emits s t (transferEvents s.cfg .command (0x04 ||| (registers i s).dm)) := by
  simp only [List.mem_cons, List.not_mem_nil, or_false] at hi
  obtain rfl | rfl | rfl | rfl := hi <;> exact guarded_and_emits rfl nofun nofun

/-- The value each entry-mode operation gives `DM`, bit by bit. -/
theorem entryOperation_dm_bits {i : Instr} {bit : Nat} {v : Bool}
    (hmem : (i, bit, v) ∈
      [(Instr.leftToRight, 1, true), (.rightToLeft, 1, false), (.autoscroll, 0, true), (.noAutoscroll, 0, false)])
    (s : State) (k : Nat) (hk : k < 8) :
    (registers i s).dm.getLsbD k = if k = bit then v else s.dm.getLsbD k := by
  simp only [List.mem_cons, Prod.mk.injEq, List.not_mem_nil, or_false] at hmem
  obtain ⟨rfl, rfl, rfl⟩ | ⟨rfl, rfl, rfl⟩ | ⟨rfl, rfl, rfl⟩ | ⟨rfl, rfl, rfl⟩ := hmem
  · exact getLsbD_setFlag (flag := entryLeft) rfl hk
  · exact getLsbD_clearFlag (flag := entryLeft) rfl hk
  · exact getLsbD_setFlag (flag := entryShiftIncrement) rfl hk
  · exact getLsbD_clearFlag (flag := entryShiftIncrement) rfl hk

/-- Settles O27: `DM` changes in the operation's own bit, and the whole of it is re-sent. -/
theorem entryModeWritesOneFlagAndResends : Obligations.EntryModeWritesOneFlagAndResends := by
  intro i bit v hmem
  obtain ⟨hguard, hruns⟩ := entryOperation_resends (List.mem_map_of_mem (f := Prod.fst) hmem)
  refine ⟨hguard, fun s h => ?_⟩
  obtain ⟨t, hexec, hregs, hemits⟩ := hruns s h
  exact ⟨t, _, hexec, entryOperation_dm_bits hmem s, hregs, hemits⟩

end Sys2Proof.Machine
end

section
/-! PROOFS. What an operation of the input port emits (43_addressing_and_data.md section 5): whole transfers, waits and
the bare nibbles of begin. So every step keeps the trace laws of R187 (O50), and only the operations R187 names select
Data or send a bare nibble (O52). -/

namespace Sys2Proof.Machine

/-! ## Where an event stands in a trace -/

/-- An element of `xs ++ ys` stands in `xs` or in `ys`. -/
theorem append_eq_append_cons {α : Type} {xs ys pre post : List α} {x : α} (h : xs ++ ys = pre ++ x :: post) :
    (∃ mid, xs = pre ++ x :: mid ∧ post = mid ++ ys) ∨ ∃ mid, pre = xs ++ mid ∧ ys = mid ++ x :: post := by
  obtain ⟨mid, hpre, hys⟩ | ⟨mid, hxs, hpost⟩ := List.append_eq_append_iff.1 h
  · exact .inr ⟨mid, hpre, hys⟩
  · cases mid with
    | nil => exact .inr ⟨[], by simpa using hxs.symm, by simpa using hpost.symm⟩
    | cons y mid =>
      obtain ⟨rfl, rfl⟩ := List.cons.inj hpost
      exact .inl ⟨mid, hxs, rfl⟩

/-- The byte of a transfer stands between its mode and, on 4-bit wiring, its nibbles. -/
theorem write8_in_transferEvents {cfg : Config} {m : Mode} {b c : Byte} {pre post : List TransportEvent}
    (h : transferEvents cfg m b = pre ++ .write8 c :: post) :
    pre = [.setMode m] ∧ (fourbit cfg = true →
      post = [.write4 (BitVec.ofNat 4 (c.toNat / 16)), .write4 (BitVec.ofNat 4 (c.toNat % 16))]) := by
  unfold transferEvents at h
  cases hfb : fourbit cfg with
  | false =>
    obtain ⟨rfl, -, -⟩ := by simpa [hfb, List.cons_eq_append_iff] using h
    simp
  | true =>
    obtain ⟨rfl, rfl, rfl⟩ := by simpa [hfb, List.cons_eq_append_iff] using h
    simp

/-- A nibble of a transfer is, on 4-bit wiring, the first or the second after the byte. -/
theorem write4_in_transferEvents {cfg : Config} {m : Mode} {b : Byte} {n : Nibble} {pre post : List TransportEvent}
    (h : transferEvents cfg m b = pre ++ .write4 n :: post) :
    fourbit cfg = true ∧ (pre = [.setMode m] ++ [.write8 b] ∨ ∃ n', pre = [.setMode m] ++ [.write8 b, .write4 n']) := by
  cases hfb : fourbit cfg with
  | false => simp [transferEvents, hfb, List.cons_eq_append_iff] at h
  | true =>
    obtain ⟨mid, rfl, ⟨rfl, -, -⟩ | ⟨rfl, -, -⟩⟩ := by simpa [transferEvents, hfb, List.cons_eq_append_iff] using h
    · exact ⟨rfl, .inl rfl⟩
    · exact ⟨rfl, .inr ⟨_, rfl⟩⟩

theorem write4_in_bareNibble {n n' : Nibble} {pre post : List TransportEvent}
    (h : [.setMode .command, .write4 n] = pre ++ .write4 n' :: post) : pre = [.setMode .command] := by
  obtain ⟨hpre, -, -⟩ := by simpa [List.cons_eq_append_iff] using h
  exact hpre

/-! ## The laws of R187 ask only for events nearby, so what is built of lawful pieces is lawful -/

theorem TraceLaws.append {fb : Bool} {xs ys : List TransportEvent} (hx : TraceLaws fb xs) (hy : TraceLaws fb ys) :
    TraceLaws fb (xs ++ ys) where
  write8AfterSetMode pre b post h := by
    obtain ⟨mid, hxs, -⟩ | ⟨mid, rfl, hys⟩ := append_eq_append_cons h
    · exact hx.write8AfterSetMode pre b mid hxs
    · obtain ⟨pre', m, rfl⟩ := hy.write8AfterSetMode mid b post hys
      exact ⟨xs ++ pre', m, (List.append_assoc ..).symm⟩
  write8ThenNibbles hfb pre b post h := by
    obtain ⟨mid, hxs, rfl⟩ | ⟨mid, -, hys⟩ := append_eq_append_cons h
    · obtain ⟨post', rfl⟩ := hx.write8ThenNibbles hfb pre b mid hxs
      exact ⟨post' ++ ys, rfl⟩
    · exact hy.write8ThenNibbles hfb mid b post hys
  write4Placed pre n post h := by
    obtain ⟨mid, hxs, -⟩ | ⟨mid, rfl, hys⟩ := append_eq_append_cons h
    · exact hx.write4Placed pre n mid hxs
    · obtain ⟨hfb, pre', b, rfl⟩ | ⟨hfb, pre', b, n', rfl⟩ | ⟨pre', rfl⟩ := hy.write4Placed mid n post hys
      · exact .inl ⟨hfb, xs ++ pre', b, (List.append_assoc ..).symm⟩
      · exact .inr (.inl ⟨hfb, xs ++ pre', b, n', (List.append_assoc ..).symm⟩)
      · exact .inr (.inr ⟨xs ++ pre', (List.append_assoc ..).symm⟩)

/-- A transfer keeps the laws: its byte follows its mode, and on 4-bit wiring its nibbles follow its byte (R186). -/
theorem traceLaws_transferEvents (cfg : Config) (m : Mode) (b : Byte) :
    TraceLaws (fourbit cfg) (transferEvents cfg m b) where
  write8AfterSetMode _ _ _ h := ⟨[], m, (write8_in_transferEvents h).1⟩
  write8ThenNibbles hfb _ _ _ h := ⟨[], (write8_in_transferEvents h).2 hfb⟩
  write4Placed _ _ _ h := by
    obtain ⟨hfb, rfl | ⟨n', rfl⟩⟩ := write4_in_transferEvents h
    · exact .inl ⟨hfb, _, _, rfl⟩
    · exact .inr (.inl ⟨hfb, _, _, _, rfl⟩)

theorem traceLaws_delay (fb : Bool) (t : Nat) : TraceLaws fb [.delay t] where
  write8AfterSetMode := by simp [List.cons_eq_append_iff]
  write8ThenNibbles := by simp [List.cons_eq_append_iff]
  write4Placed := by simp [List.cons_eq_append_iff]

/-- A bare nibble of begin keeps the laws: it follows `SetMode(Command)` (R134). -/
theorem traceLaws_bareNibble (fb : Bool) (n : Nibble) : TraceLaws fb [.setMode .command, .write4 n] where
  write8AfterSetMode := by simp [List.cons_eq_append_iff]
  write8ThenNibbles := by simp [List.cons_eq_append_iff]
  write4Placed _ _ _ h := .inr (.inr ⟨[], write4_in_bareNibble h⟩)

/-! ## What an operation of the input port is built of -/

/-- A trace built of whole transfers, waits and bare nibbles; `data` must hold if it has a transfer with mode Data,
`bare` if it has a bare nibble. -/
inductive OperationTrace (cfg : Config) (data bare : Prop) : List TransportEvent → Prop where
  | nil : OperationTrace cfg data bare []
  | transfer (m : Mode) (b : Byte) (hdata : m = .data → data) : OperationTrace cfg data bare (transferEvents cfg m b)
  | delay (t : Nat) : OperationTrace cfg data bare [.delay t]
  | bareNibble (n : Nibble) (hbare : bare) : OperationTrace cfg data bare [.setMode .command, .write4 n]
  | append {xs ys : List TransportEvent} (hx : OperationTrace cfg data bare xs)
    (hy : OperationTrace cfg data bare ys) : OperationTrace cfg data bare (xs ++ ys)

section
variable {cfg : Config} {data bare : Prop}

theorem OperationTrace.command (b : Byte) : OperationTrace cfg data bare (transferEvents cfg .command b) :=
  .transfer .command b nofun

theorem OperationTrace.dataBytes (hdata : data) (bs : List Byte) :
    OperationTrace cfg data bare (bs.flatMap (transferEvents cfg .data)) := by
  induction bs with
  | nil => exact .nil
  | cons b bs ih => exact .append (.transfer .data b fun _ => hdata) ih

/-- The initialisation of the wiring: four bare nibbles with their waits, or whole function sets (R134, R135). -/
theorem OperationTrace.initEvents (hbare : bare) {fs : List TransportEvent} (hfs : OperationTrace cfg data bare fs) :
    OperationTrace cfg data bare (initEvents cfg fs) := by
  unfold Machine.initEvents
  split
  · have nibble (n : Nibble) (t : Nat) : OperationTrace cfg data bare [.setMode .command, .write4 n, .delay t] :=
      .append (.bareNibble n hbare) (.delay t)
    exact .append (nibble 0x3 _) (.append (nibble 0x3 _) (.append (nibble 0x3 _) (.bareNibble 0x2 hbare)))
  · cases cfg.fsRepeats with
    | zero => exact .nil
    | one => exact .append hfs (.delay _)
    | three => exact .append (.append (.append (.append hfs (.delay _)) hfs) (.delay _)) hfs

end

/-- The operations that may select Data (R187 item 4). -/
def SendsData (i : Instr) : Prop := (∃ v, i = .write v) ∨ ∃ x p, i = .createChar x p

/-- What each operation of the input port emits (R90): write and createChar data bytes, begin the initialisation of the
wiring, and every operation commands and waits. -/
theorem operationTrace_events {i : Instr} (hi : i.isInputOp = true) (s : State) :
    OperationTrace s.cfg (SendsData i) (∃ a b c, i = .begin a b c) (events i s) := by
  cases i with
  | begin cols rows charsize =>
    have hinit := OperationTrace.initEvents (cfg := s.cfg) (data := SendsData (.begin cols rows charsize))
      (bare := ∃ a b c, Instr.begin cols rows charsize = .begin a b c) ⟨_, _, _, rfl⟩
      (.command (functionSetByte (functionFlags (fourbit s.cfg) rows charsize)))
    exact .append (.append (.delay _) hinit)
      (.append (.append (.append (.command _) (.command _)) (.append (.command _) (.delay _))) (.command _))
  | clear => exact .append (.command _) (.delay _)
  | createChar index pattern => exact .append (.command _) (.dataBytes (.inr ⟨_, _, rfl⟩) _)
  | setCursor col row =>
    rw [events_setCursor]
    split
    · exact .command _
    · exact .nil
  | write v => exact .transfer .data v fun _ => .inl ⟨v, rfl⟩
  | home | noDisplay | display | noCursor | cursor | noBlink | blink => exact .command _
  | scrollDisplayLeft | scrollDisplayRight | leftToRight | rightToLeft | autoscroll | noAutoscroll => exact .command _
  | command v => exact .command v
  | _ => cases hi

/-! ## The trace laws through a step (R187 items 1 to 3) -/

theorem OperationTrace.traceLaws {cfg : Config} {data bare : Prop} {evs : List TransportEvent}
    (h : OperationTrace cfg data bare evs) : TraceLaws (fourbit cfg) evs := by
  induction h with
  | nil => exact traceLaws_nil _
  | transfer m b => exact traceLaws_transferEvents cfg m b
  | delay t => exact traceLaws_delay _ t
  | bareNibble n => exact traceLaws_bareNibble _ n
  | append _ _ ihx ihy => exact ihx.append ihy

theorem TraceLawful.dropRequest {s : State} {q : Request} {rest : List Request} (h : TraceLawful s)
    (hp : s.port = q :: rest) : TraceLawful { s with port := rest } := by
  obtain ⟨hport, hlaws⟩ := h
  exact ⟨fun r hr => hport r (hp ▸ List.mem_cons_of_mem q hr), hlaws⟩

/-- An operation of the input port appends a trace that keeps the laws by itself, or nothing. -/
theorem TraceLawful.result {s : State} (h : TraceLawful s) {i : Instr} (hi : i.isInputOp = true) :
    TraceLawful (result i s) := by
  obtain ⟨r, _, he⟩ | ⟨_, rfl, _⟩ | ⟨_, _, he⟩ := result_cases i s
  · rw [he]; exact h
  · cases hi
  · obtain ⟨hport, hlaws⟩ := h
    rw [he]
    refine ⟨by simpa using hport, ?_⟩
    simpa using hlaws.append (operationTrace_events hi s).traceLaws

/-- Settles O50: a request of a lawful host decodes to an operation of the input port, and the events of one keep the
laws wherever they are appended. -/
theorem stepKeepsTraceLaws : Obligations.StepKeepsTraceLaws := by
  intro s t h hstep
  obtain ⟨_, ⟨_, rfl⟩ | ⟨q, rest, i, hp, hq, rfl⟩⟩ := step_next hstep
  · exact h
  · obtain ⟨j, rfl⟩ := h.1 q (by simp [hp])
    have hi : i.isInputOp = true := by
      obtain ⟨_, hop⟩ | ⟨hcall, _⟩ | ⟨w, hw, _⟩ := decode_ok_cases hq
      · exact hop
      · cases hcall
      · cases hw
    exact (h.dropRequest hp).result hi

/-! ## Who selects Data and who sends a bare nibble (R187 items 3 and 4) -/

theorem setMode_mem_transferEvents {cfg : Config} {m m' : Mode} {b : Byte}
    (h : .setMode m' ∈ transferEvents cfg m b) : m' = m := by
  unfold transferEvents at h
  cases hfb : fourbit cfg <;> simpa [hfb] using h

theorem OperationTrace.data_of_mem {cfg : Config} {data bare : Prop} {evs : List TransportEvent}
    (h : OperationTrace cfg data bare evs) (hmem : .setMode .data ∈ evs) : data := by
  induction h with
  | nil => cases hmem
  | transfer m b hdata => exact hdata (setMode_mem_transferEvents hmem).symm
  | delay t => simp at hmem
  | bareNibble n => simp at hmem
  | append _ _ ihx ihy => exact (List.mem_append.1 hmem).elim ihx ihy

/-- In a trace built without bare nibbles, each nibble comes after an event that is no `SetMode`. -/
theorem OperationTrace.bare_or_write4_after {cfg : Config} {data bare : Prop} {evs : List TransportEvent}
    (h : OperationTrace cfg data bare evs) {pre post : List TransportEvent} {n : Nibble}
    (hevs : evs = pre ++ .write4 n :: post) : bare ∨ ∃ pre' ev, pre = pre' ++ [ev] ∧ ∀ m, ev ≠ .setMode m := by
  induction h generalizing pre post with
  | nil => simp at hevs
  | transfer m b =>
    obtain ⟨_, rfl | ⟨n', rfl⟩⟩ := write4_in_transferEvents hevs
    · exact .inr ⟨[.setMode m], .write8 b, rfl, nofun⟩
    · exact .inr ⟨[.setMode m, .write8 b], .write4 n', rfl, nofun⟩
  | delay t => simp [List.cons_eq_append_iff] at hevs
  | bareNibble n hbare => exact .inl hbare
  | @append xs ys _ _ ihx ihy =>
    obtain ⟨mid, hxs, -⟩ | ⟨mid, rfl, hys⟩ := append_eq_append_cons hevs
    · exact ihx hxs
    · obtain hbare | ⟨pre', ev, rfl, hev⟩ := ihy hys
      · exact .inl hbare
      · exact .inr ⟨xs ++ pre', ev, (List.append_assoc ..).symm, hev⟩

theorem OperationTrace.bare_of_setMode_write4 {cfg : Config} {data bare : Prop} {pre post : List TransportEvent}
    {m : Mode} {n : Nibble} (h : OperationTrace cfg data bare (pre ++ .setMode m :: .write4 n :: post)) : bare := by
  obtain hbare | ⟨pre', ev, hpre, hev⟩ := h.bare_or_write4_after (List.append_cons pre (.setMode m) (.write4 n :: post))
  · exact hbare
  · have hlast := List.append_inj_right' hpre rfl
    exact absurd (List.singleton_inj.1 hlast).symm (hev m)

/-- Settles O52: a fault appends nothing, and otherwise the appended events are those of `operationTrace_events`. -/
theorem onlyWriteAndCreateCharSelectData : Obligations.OnlyWriteAndCreateCharSelectData := by
  intro i s t hi ht
  obtain ⟨_, rfl⟩ := exec_next ht
  obtain ⟨r, _, he⟩ | ⟨_, rfl, _⟩ | ⟨_, _, he⟩ := result_cases i s
  · rw [he]
    exact ⟨[], by simp, by simp, by simp⟩
  · cases hi
  · have hbuilt := operationTrace_events hi s
    rw [he]
    refine ⟨events i s, by simp, hbuilt.data_of_mem, ?_⟩
    rintro ⟨pre, m, n, post, hevs⟩
    exact (hevs ▸ hbuilt).bare_of_setMode_write4

end Sys2Proof.Machine
end

section
/-! PROOFS. Addressing and data (43_addressing_and_data.md): `send` (O17), write and command (O32, O33), createChar (O29)
and setCursor (O30). -/

namespace Sys2Proof.Machine

/-- Settles O17: the call is the send itself, and no guard but the fault's stands before it. -/
theorem sendSelectsModeThenWritesByte : Obligations.SendSelectsModeThenWritesByte := fun _ _ _ h =>
  sends_of_result h rfl

/-- Settles O32: write's events are the transfer of its operand with mode Data (R184). -/
theorem writeSendsDataByte : Obligations.WriteSendsDataByte := fun v =>
  guarded_and_emits (i := .write v) rfl nofun nofun

/-- Settles O33: command's events are the transfer of its operand with mode Command, and it is no writer of a register
(R185). -/
theorem commandBypassesStateTracking : Obligations.CommandBypassesStateTracking := fun v =>
  guarded_and_emits (i := .command v) rfl nofun nofun

/-! ## createChar (R180) -/

theorem glyphSlot_toNat (index : Byte) : (glyphSlot index).toNat = index.toNat % 8 :=
  (BitVec.toNat_and ..).trans (Nat.and_two_pow_sub_one_eq_mod index.toNat 3)

/-- The slot lies below the command's own bit, so the byte is their sum (R87). -/
theorem glyphByte_eq_ofNat (index : Byte) : glyphByte index = BitVec.ofNat 8 (64 + 8 * (index.toNat % 8)) := by
  have hdisjoint : (0x40 : Byte) &&& (glyphSlot index <<< 3) = 0 := by
    apply byte_eq_of_bits <;> simp [glyphSlot]
  have hsum : glyphByte index = 0x40 + (glyphSlot index <<< 3) :=
    (BitVec.add_eq_or_of_and_eq_zero _ _ hdisjoint).symm
  rw [hsum]
  apply BitVec.eq_of_toNat_eq
  simp [glyphSlot_toNat, Nat.shiftLeft_eq]
  omega

theorem events_createChar (index : Byte) (p : Pattern) (s : State) :
    events (.createChar index p) s =
      transferEvents s.cfg .command (glyphByte index) ++ (patternBytes p).flatMap (transferEvents s.cfg .data) := rfl

/-- Settles O29: createChar's events are the address of the slot and the eight bytes of the pattern, and they end there
(R180). -/
theorem createCharLoadsSlotInOrder : Obligations.CreateCharLoadsSlotInOrder := by
  intro index p
  obtain ⟨hguard, hruns⟩ := guarded_and_emits (i := .createChar index p) rfl nofun nofun
  refine ⟨hguard, fun s h => ?_⟩
  obtain ⟨t, hexec, hregs, hemits⟩ := hruns s h
  refine ⟨t, hexec, hregs, ?_⟩
  simpa [events_createChar, glyphByte_eq_ofNat, patternBytes] using hemits

/-! ## setCursor (R181 to R183) -/

/-- The clamp in 8-bit arithmetic is the clamp on numbers (R182): `NUMLINES - 1` is 255 when `NUMLINES` is 0. -/
theorem clampRow_toNat (clamp : RowClamp) (numlines row : Byte) :
    (clampRow clamp numlines row).toNat = clampedRow clamp numlines.toNat row.toNat := by
  have hpred : (numlines - 1).toNat = (numlines.toNat + 255) % 256 := by
    rw [BitVec.toNat_sub, Nat.add_comm]
    rfl
  cases clamp with
  | ge =>
    simp only [clampRow, clampedRow, BitVec.ule, decide_eq_true_eq]
    split
    · exact hpred
    · rfl
  | gt =>
    simp only [clampRow, clampedRow, BitVec.ult, decide_eq_true_eq]
    split
    · exact hpred
    · rfl

theorem clampRow_eq_ofNat (clamp : RowClamp) (numlines row : Byte) :
    clampRow clamp numlines row = BitVec.ofNat 8 (clampedRow clamp numlines.toNat row.toNat) := by
  rw [← clampRow_toNat, BitVec.ofNat_toNat, BitVec.setWidth_eq]

/-- The row base table as a list of its four entries (R32). -/
theorem rowBaseAt_eq_getElem? (t : RowBase) (r : Byte) :
    rowBaseAt t r = [t.row0, t.row1, t.row2, t.row3][r.toNat]? := by
  unfold rowBaseAt
  split_ifs with h0 h1 h2 h3
  · rw [h0]; rfl
  · rw [h1]; rfl
  · rw [h2]; rfl
  · rw [h3]; rfl
  · have hr : 4 ≤ r.toNat := by bv_omega
    exact (List.getElem?_eq_none hr).symm

/-- The address a column has on a row, as the command byte of R183: sums of 128 or more wrap. -/
theorem setDdramByte_ddramAddress (col : Byte) (base : Addr7) :
    setDdramByte (ddramAddress col base) = BitVec.ofNat 8 (128 + (col.toNat + base.toNat) % 128) := by
  rw [setDdramByte_eq_ofNat, ddramAddress, BitVec.toNat_ofNat]

/-- After begin, a row without an entry in the table faults (R204). -/
theorem exec_setCursor_of_rowBaseAt_none {s : State} {col row : Byte} (h : Running s)
    (hbase : rowBaseAt s.cfg.rowBase (clampRow s.cfg.rowClamp s.numlines row) = none) :
    exec (.setCursor col row) s =
      .next (faulted (.rowOutOfTable col row (clampRow s.cfg.rowClamp s.numlines row) s.numlines) s) := by
  obtain ⟨hfault, hinit⟩ := h
  have hraises : raises (.setCursor col row) s =
      some (.rowOutOfTable col row (clampRow s.cfg.rowClamp s.numlines row) s.numlines) := by
    rw [raises_setCursor, hinit, hbase]; rfl
  rw [exec_eq _ s hfault, result_of_raises hraises]
  rfl

/-- After begin, a row with an entry in the table sends the address and writes no register (R181). -/
theorem exec_setCursor_of_rowBaseAt_some {s : State} {col row : Byte} {base : Addr7} (h : Running s)
    (hbase : rowBaseAt s.cfg.rowBase (clampRow s.cfg.rowClamp s.numlines row) = some base) :
    exec (.setCursor col row) s =
      .next (emitAll (transferEvents s.cfg .command (setDdramByte (ddramAddress col base))) s) := by
  obtain ⟨hfault, hinit⟩ := h
  have hraises : raises (.setCursor col row) s = none := by rw [raises_setCursor, hinit, hbase]; rfl
  have hevents : events (.setCursor col row) s =
      transferEvents s.cfg .command (setDdramByte (ddramAddress col base)) := by rw [events_setCursor, hbase]
  rw [exec_eq _ s hfault, result_of_raises_none hraises nofun, hevents]
  rfl

/-- Settles O30: the lookup of the clamped row in the table of four decides between the fault and the command. -/
theorem setCursorAddressesClampedRow : Obligations.SetCursorAddressesClampedRow := by
  intro col row
  refine ⟨guardedByInit_of_isInputOp rfl nofun, fun s h => ⟨fun hr => ?_, fun base hbase => ?_⟩⟩
  · have hnone : rowBaseAt s.cfg.rowBase (clampRow s.cfg.rowClamp s.numlines row) = none := by
      rw [rowBaseAt_eq_getElem?, clampRow_toNat]
      exact List.getElem?_eq_none hr
    rw [exec_setCursor_of_rowBaseAt_none h hnone, clampRow_eq_ofNat]
  · rw [← clampRow_toNat, ← rowBaseAt_eq_getElem?] at hbase
    rw [← setDdramByte_ddramAddress]
    exact ⟨_, exec_setCursor_of_rowBaseAt_some h hbase, sameRegisters_emitAll _ s, emits_emitAll _ s⟩

end Sys2Proof.Machine
end

section
/-! PROOFS. Exceptions (60_exceptions.md): when a fault is raised (R201 to R205), that its entry is precise (R206) and
what it records is true of its state (O51), and when a step stops or is idle (R207, R214). -/

namespace Sys2Proof.Machine

/-! ## The conditions of the faults (R201 to R205) -/

/-- The row base table has no entry for the clamped row exactly when that row is 4 or more (R32, R181). -/
theorem rowBaseAt_clampRow_eq_none_iff (s : State) (row : Byte) :
    rowBaseAt s.cfg.rowBase (clampRow s.cfg.rowClamp s.numlines row) = none ↔
      4 ≤ clampedRow s.cfg.rowClamp s.numlines.toNat row.toNat := by
  rw [rowBaseAt_eq_getElem?, clampRow_toNat]
  exact List.getElem?_eq_none_iff

/-- The inversion of `raises`: each reason with the operation that raises it and its condition. -/
theorem raises_some_cases {i : Instr} {s : State} {r : FaultReason} (h : raises i s = some r) :
    (r = .notInitialized i ∧ i.isInputOp = true ∧ (∀ a b c, i ≠ .begin a b c) ∧ s.init = false) ∨
    (r = .beginTwice ∧ (∃ a b c, i = .begin a b c) ∧ s.init = true) ∨
    (∃ col row, i = .setCursor col row ∧ s.init = true ∧
      4 ≤ clampedRow s.cfg.rowClamp s.numlines.toNat row.toNat ∧
      r = .rowOutOfTable col row (clampRow s.cfg.rowClamp s.numlines row) s.numlines) := by
  cases i with
  | begin a b c =>
    obtain ⟨hinit, rfl⟩ : s.init = true ∧ .beginTwice = r := by simpa [raises_begin] using h
    exact .inr (.inl ⟨rfl, ⟨a, b, c, rfl⟩, hinit⟩)
  | setCursor col row =>
    cases hinit : s.init with
    | false =>
      rw [raises_of_not_init (i := .setCursor col row) rfl nofun hinit] at h
      cases h
      exact .inl ⟨rfl, rfl, nofun, rfl⟩
    | true =>
      cases hbase : rowBaseAt s.cfg.rowBase (clampRow s.cfg.rowClamp s.numlines row) with
      | some base => simp [raises_setCursor, hinit, hbase] at h
      | none =>
        obtain rfl : .rowOutOfTable col row (clampRow s.cfg.rowClamp s.numlines row) s.numlines = r := by
          simpa [raises_setCursor, hinit, hbase] using h
        exact .inr (.inr ⟨col, row, rfl, rfl, (rowBaseAt_clampRow_eq_none_iff s row).mp hbase, rfl⟩)
  | _ =>
    simp only [raises, Option.ite_none_right_eq_some, Bool.and_eq_true, Bool.not_eq_true', Option.some.injEq] at h
    obtain ⟨⟨hop, hinit⟩, rfl⟩ := h
    exact .inl ⟨rfl, hop, nofun, hinit⟩

/-! ## Fault entry (R206) -/

/-- `FAULT` after an instruction that ran is what it raised: no register write and no event touches it. -/
theorem result_fault (i : Instr) {s : State} (h : s.fault = none) : (result i s).fault = raises i s := by
  obtain ⟨r, hr, he⟩ | ⟨hr, _, he⟩ | ⟨hr, _, he⟩ := result_cases i s
  · rw [he, hr, raise_fault]
  · rw [he, hr]
    exact h
  · rw [he, hr, emitAll_fault, registers_fault, h]

/-- A next state with a reason in `FAULT` comes from an instruction that raised that reason. -/
theorem raises_of_exec_next_fault {i : Instr} {s t : State} {r : FaultReason} (hexec : exec i s = .next t)
    (hr : t.fault = some r) : raises i s = some r ∧ t = faulted r s := by
  obtain ⟨hfault, rfl⟩ := exec_next hexec
  have hraises : raises i s = some r := (result_fault i hfault).symm.trans hr
  exact ⟨hraises, result_of_raises hraises⟩

/-- Settles O36: the reason was raised by the instruction, and raising writes `FAULT` alone. -/
theorem faultEntryIsPrecise : Obligations.FaultEntryIsPrecise := fun _ _ _ _ hexec hr =>
  (raises_of_exec_next_fault hexec hr).2

/-- Settles O37: the inversion of `raises`, with the clamped row as a number. -/
theorem faultsHaveTheirConditions : Obligations.FaultsHaveTheirConditions := by
  intro i s t r hexec hr
  have hcases := raises_some_cases (raises_of_exec_next_fault hexec hr).1
  simpa only [clampRow_eq_ofNat] using hcases

/-! ## What `FAULT` records -/

/-- What a raised fault records is true of the state it is raised in. -/
theorem faultRecorded_of_raises {i : Instr} {s : State} {r : FaultReason} (h : raises i s = some r) :
    FaultRecorded (raise r s) := by
  obtain ⟨rfl, hop, _, hinit⟩ | ⟨rfl, _, hinit⟩ | ⟨col, row, _, hinit, hrow, rfl⟩ := raises_some_cases h
  · exact ⟨hinit, hop⟩
  · exact hinit
  · have hclamp := clampRow_toNat s.cfg.rowClamp s.numlines row
    exact ⟨hinit, rfl, hclamp, hrow.trans_eq hclamp.symm⟩

theorem faultRecorded_of_fault_none {s : State} (h : s.fault = none) : FaultRecorded s := by
  rw [FaultRecorded, h]
  trivial

theorem faultRecorded_result (i : Instr) {s : State} (h : s.fault = none) : FaultRecorded (result i s) := by
  cases hr : raises i s with
  | none => exact faultRecorded_of_fault_none ((result_fault i h).trans hr)
  | some r =>
    rw [result_of_raises hr]
    exact faultRecorded_of_raises hr

/-- Settles O51: the idle step changes nothing, and an instruction records only what it raises. -/
theorem stepKeepsFaultRecorded : Obligations.StepKeepsFaultRecorded := by
  intro s t hrecorded hstep
  obtain ⟨hfault, ⟨_, rfl⟩ | ⟨q, rest, i, _, _, rfl⟩⟩ := step_next hstep
  · exact hrecorded
  · exact faultRecorded_result i (s := { s with port := rest }) hfault

/-! ## Each fault on its operations -/

/-- Settles O34: the `INIT` check stands before every operation but begin (R202). -/
theorem operationBeforeBeginFaults : Obligations.OperationBeforeBeginFaults := fun _ s hfault hinit hop hbegin =>
  guardedByInit_of_isInputOp hop hbegin s hfault hinit

/-- Settles O35: setCursor's `INIT` check answers before the row is looked up, whatever the row (R205). -/
theorem initCheckComesBeforeRowCheck : Obligations.InitCheckComesBeforeRowCheck := fun col row s hfault hinit _ =>
  guardedByInit_of_isInputOp (i := .setCursor col row) rfl nofun s hfault hinit

/-- Settles O21: begin on an initialised block is `result_begin_of_init`. -/
theorem secondBeginFaults : Obligations.SecondBeginFaults := fun cols rows charsize s hfault hinit => by
  rw [exec_eq _ s hfault, result_begin_of_init cols rows charsize hinit]

/-- With `NUMLINES = 0` under `GE` every row is over, and `NUMLINES - 1` wraps (R182). -/
theorem clampedRow_ge_zero (row : Nat) : clampedRow .ge 0 row = 255 := by
  simp [clampedRow]

theorem clampedRow_of_lt (clamp : RowClamp) {numlines row : Nat} (h : row < numlines) :
    clampedRow clamp numlines row = row := by
  cases clamp with
  | ge => exact if_neg (Nat.not_le.mpr h)
  | gt => exact if_neg (Nat.not_lt.mpr h.le)

/-- Settles O31: setCursor faults on every clamped row of 4 or more, and the other two clauses are such rows (R204). -/
theorem setCursorFaultsOutsideRowTable : Obligations.SetCursorFaultsOutsideRowTable := by
  intro col row s hrunning
  obtain ⟨_, hmoves⟩ := setCursorAddressesClampedRow col row
  obtain ⟨hfaults, _⟩ := hmoves s hrunning
  refine ⟨hfaults, fun hclamp hnone => ?_, fun hrow hlt => ?_⟩
  · have h255 : clampedRow s.cfg.rowClamp s.numlines.toNat row.toNat = 255 := by
      rw [hclamp, hnone]
      exact clampedRow_ge_zero row.toNat
    rw [hfaults (by omega), h255, hnone]
    rfl
  · have hsame := clampedRow_of_lt s.cfg.rowClamp hlt
    rw [hfaults (by omega), hsame, BitVec.ofNat_toNat, BitVec.setWidth_eq]

/-! ## Stopped and idle (R207, R214) -/

/-- Settles O38: the step and every instruction look at `FAULT` first (R207). -/
theorem noStepAfterFault : Obligations.NoStepAfterFault := fun s r h =>
  ⟨step_of_fault h, fun i => exec_of_fault i s r h⟩

/-- Settles O10: with an empty list the step takes no request (R214). -/
theorem idleStepChangesNothing : Obligations.IdleStepChangesNothing := fun _ => step_of_port_nil

end Sys2Proof.Machine
end

section
/-! PROOFS. Hazards and timing (70_reset_and_hazards.md): the enable pulses of the direct-pin lowering (R239, O56), and
the least duration of each operation (R242, O58). -/

namespace Sys2Proof.Machine

/-! ## The enable-pulse hazard (R239) -/

/-- Settles O56: `honours_lowerDirect`, by `pulses_lowerDirect` (register select and data are driven before enable
rises, and nothing before it falls) and `waitOwed_le_waits_lowerDirect` (a `Delay` is lowered to its own wait). -/
theorem directLoweringMeetsEnableHazard : Obligations.DirectLoweringMeetsEnableHazard := fun _ ev hrs hd =>
  honours_lowerDirect hrs hd ev

/-! ## The waits of the direct-pin lowering (R118, R119) -/

@[simp] theorem waits_append (ps qs : List PinEvent) : waits (ps ++ qs) = waits ps + waits qs := by
  induction ps with
  | nil => simp [waits]
  | cons e es ih => cases e <;> simp [waits, ih, Nat.add_assoc]

@[simp] theorem waits_driveData (v : Byte) (k : Nat) (data : List PinId) : waits (driveData v k data) = 0 := by
  induction data generalizing k with
  | nil => rfl
  | cons p ps ih => exact ih (k + 1)

/-- Time passes in an event's own wait and in its enable pulses, nowhere else. -/
theorem waits_lowerDirect (cfg : Config) (ev : TransportEvent) :
    waits (lowerDirect cfg ev) = waitOwed ev + pulsesOwed cfg ev * waits (directPulse cfg) := by
  cases ev with
  | setMode m => cases hrw : cfg.rwPin <;> simp [lowerDirect, driveReadWrite, hrw, waits, waitOwed, pulsesOwed]
  | write4 n => simp [lowerDirect, waitOwed, pulsesOwed]
  | write8 b => cases hfb : fourbit cfg <;> simp [lowerDirect, hfb, waits, waitOwed, pulsesOwed]
  | delay t => simp [lowerDirect, waits, waitOwed, pulsesOwed]

/-- One enable pulse under the default constants (R242). -/
theorem waits_directPulse_of_defaultTiming {cfg : Config} (h : cfg.timing = Config.defaultTiming) :
    waits (directPulse cfg) = 102 := by
  simp [directPulse, waits, h, Config.defaultTiming]

/-! ## The least duration of a run of events -/

/-- The sum of the waits that the direct-pin lowering gives a run of events. -/
def directDuration (cfg : Config) (evs : List TransportEvent) : Nat := waits (evs.flatMap (lowerDirect cfg))

@[simp] theorem directDuration_nil (cfg : Config) : directDuration cfg [] = 0 := rfl

theorem directDuration_cons (cfg : Config) (ev : TransportEvent) (evs : List TransportEvent) :
    directDuration cfg (ev :: evs) =
      waitOwed ev + pulsesOwed cfg ev * waits (directPulse cfg) + directDuration cfg evs := by
  simp [directDuration, waits_lowerDirect]

@[simp] theorem directDuration_delay (cfg : Config) (t : Nat) : directDuration cfg [.delay t] = t := by
  simp [directDuration_cons, waitOwed, pulsesOwed]

@[simp] theorem directDuration_append (cfg : Config) (xs ys : List TransportEvent) :
    directDuration cfg (xs ++ ys) = directDuration cfg xs + directDuration cfg ys := by
  simp [directDuration]

/-- What emitting adds to the pin trace of a direct-pin block. -/
theorem waits_emitAll {s : State} (h : s.cfg.transport = .directPin) (evs : List TransportEvent) :
    waits (emitAll evs s).pins = waits s.pins + directDuration s.cfg evs := by
  simp [directDuration, lower_of_directPin h]

/-- The least duration of one transfer: one pulse on 8-bit wiring, two on 4-bit wiring (R242, first row). -/
def transferDuration (fb : Bool) : Nat := if fb then 204 else 102

section
variable {cfg : Config} (h : cfg.timing = Config.defaultTiming)
include h

theorem directDuration_transferEvents (m : Mode) (b : Byte) :
    directDuration cfg (transferEvents cfg m b) = transferDuration (fourbit cfg) := by
  have hpulse := waits_directPulse_of_defaultTiming h
  cases hfb : fourbit cfg <;>
    simp [transferEvents, transferDuration, hfb, directDuration_cons, waitOwed, pulsesOwed, hpulse]

theorem directDuration_flatMap_transferEvents (m : Mode) (bs : List Byte) :
    directDuration cfg (bs.flatMap (transferEvents cfg m)) = bs.length * transferDuration (fourbit cfg) := by
  induction bs with
  | nil => simp
  | cons b bs ih =>
    rw [List.flatMap_cons, directDuration_append, ih, directDuration_transferEvents h, List.length_cons]
    ring

/-- The initialisation of the wiring: four bare nibbles and three waits, or function sets with their waits (R134,
R135). -/
theorem directDuration_initEvents (fs : List TransportEvent) :
    directDuration cfg (initEvents cfg fs) =
      if fourbit cfg then 9558 else
        match cfg.fsRepeats with
        | .zero => 0
        | .one => directDuration cfg fs + 4500
        | .three => 3 * directDuration cfg fs + 4650 := by
  have hpulse := waits_directPulse_of_defaultTiming h
  cases hfb : fourbit cfg with
  | true => simp [initEvents, hfb, directDuration_cons, waitOwed, pulsesOwed, hpulse, h, Config.defaultTiming]
  | false =>
    cases hk : cfg.fsRepeats with
    | zero => simp [initEvents, hfb, hk]
    | one => simp [initEvents, hfb, hk, h, Config.defaultTiming]
    | three =>
      simp only [initEvents, hfb, hk, Bool.false_eq_true, if_false, directDuration_append, directDuration_delay, h,
        Config.defaultTiming]
      ring

end

/-! ## The table of R242 -/

/-- begin: the power-on wait, the initialisation of the wiring, four commands and the clear's settle delay. -/
theorem leastDuration_begin {s : State} (h : s.cfg.timing = Config.defaultTiming) (cols rows charsize : Byte) :
    leastDuration (fourbit s.cfg) s.cfg.fsRepeats (.begin cols rows charsize) =
      some (directDuration s.cfg (events (.begin cols rows charsize) s)) := by
  have htransfer := directDuration_transferEvents h
  simp only [events_begin, directDuration_append, directDuration_initEvents h, htransfer, directDuration_delay,
    h, Config.defaultTiming, leastDuration, transferDuration]
  cases fourbit s.cfg with
  | true => simp
  | false => cases s.cfg.fsRepeats <;> simp

/-- An operation that raises nothing takes its entry of the table. -/
theorem leastDuration_eq {s : State} (h : s.cfg.timing = Config.defaultTiming) {i : Instr} (hi : i.isInputOp = true)
    (hraises : raises i s = none) :
    leastDuration (fourbit s.cfg) s.cfg.fsRepeats i = some (directDuration s.cfg (events i s)) := by
  have hcommand (b : Byte) :
      some (transferDuration (fourbit s.cfg)) = some (directDuration s.cfg (transferEvents s.cfg .command b)) :=
    congrArg some (directDuration_transferEvents h .command b).symm
  cases i with
  | begin cols rows charsize => exact leastDuration_begin h cols rows charsize
  | clear =>
    rw [events, directDuration_append, directDuration_transferEvents h, directDuration_delay, h]
    cases fourbit s.cfg <;> rfl
  | createChar index pattern =>
    have hlength : (patternBytes pattern).length = 8 := rfl
    rw [events, directDuration_append, directDuration_transferEvents h, directDuration_flatMap_transferEvents h,
      hlength]
    cases fourbit s.cfg <;> rfl
  | setCursor col row =>
    rw [events_setCursor]
    split
    next => exact hcommand _
    next hnone => cases hinit : s.init <;> simp [raises_setCursor, hinit, hnone] at hraises
  | write v => exact congrArg some (directDuration_transferEvents h .data v).symm
  | home | noDisplay | display | noCursor | cursor | noBlink | blink => exact hcommand _
  | scrollDisplayLeft | scrollDisplayRight | leftToRight | rightToLeft | autoscroll | noAutoscroll => exact hcommand _
  | command v => exact hcommand v
  | _ => cases hi

theorem isInputOp_of_leastDuration {fb : Bool} {k : FsRepeats} {i : Instr} {d : Nat}
    (h : leastDuration fb k i = some d) : i.isInputOp = true := by
  cases i with
  | begin | clear | home | noDisplay | display | noCursor | cursor | noBlink | blink => rfl
  | scrollDisplayLeft | scrollDisplayRight | leftToRight | rightToLeft | autoscroll | noAutoscroll => rfl
  | createChar | setCursor | write | command => rfl
  | _ => cases h

/-- Settles O58: without a fault the operation has emitted its events, and their waits are its entry of the table. -/
theorem leastDurationsUnderDefaultTiming : Obligations.LeastDurationsUnderDefaultTiming := by
  intro i s t d htransport htiming hexec hfault hd
  obtain ⟨hrunning, rfl⟩ := exec_next hexec
  have hop : i.isInputOp = true := isInputOp_of_leastDuration hd
  have hraises : raises i s = none := (result_fault i hrunning).symm.trans hfault
  have hpulse : i ≠ .pulseEnable := by rintro rfl; cases hop
  have hduration : directDuration s.cfg (events i s) = d :=
    Option.some.inj ((leastDuration_eq htiming hop hraises).symm.trans hd)
  rw [result_of_raises_none hraises hpulse, waits_emitAll (by simpa using htransport), registers_pins, registers_cfg,
    hduration]

end Sys2Proof.Machine
end
